-- ==== Sys2Proof/Word.lean ====
section
/-! DEFINITION. The words of the model: a byte of the station link, a byte string, and a sparse table
of numbered records. Numbers of the spec (frames, minutes, reel IDs) are natural numbers; only what the
spec counts modulo a power of two (encoder position, timestamp) is a bit vector. -/

namespace Sys2Proof

/-- A byte of the station link or of TAG (R180). -/
abbrev Byte := BitVec 8

/-- A string of bytes, the first sent first. -/
abbrev Bytes := List Byte

/-- The suite timestamp and the encoder position are counts modulo 2^32 (00 section 5.2, R45). -/
abbrev Word32 := BitVec 32

/-- A table of numbered places: the filled places with their numbers, in rising order of number.
A place that is not listed is empty. -/
abbrev Table (α : Type) := List (Nat × α)

end Sys2Proof
end

