-- ==== Sys2Proof/Machine/Bytes.lean ====
section
/-! DEFINITION. Byte order and widths of the station link and of TAG (R180): little-endian fields,
two's complement for signed ones. -/

namespace Sys2Proof.Machine

/-- `v` as a field of `n` bytes, least significant byte first (R180). -/
def le : Nat → Nat → Bytes
  | 0, _ => []
  | n + 1, v => BitVec.ofNat 8 v :: le n (v / 256)

/-- A signed field of `n` bytes in two's complement (R180). -/
def leInt (n : Nat) (v : Int) : Bytes := le n (v % (256 ^ n : Nat)).toNat

/-- The number that a field of bytes spells, least significant byte first (R180). -/
def ofLe : Bytes → Nat
  | [] => 0
  | b :: bs => b.toNat + 256 * ofLe bs

/-- The signed number that one byte spells in two's complement (R180). -/
def signedByte (v : Nat) : Int := if v < 128 then (v : Int) else (v : Int) - 256

/-- The byte value that spells a signed number (R180). -/
def byteOfSigned (v : Int) : Nat := (v % 256).toNat

/-- One byte that holds `v` (R180). -/
def u8 (v : Nat) : Bytes := le 1 v

/-- Two bytes that hold `v` (R180). -/
def u16 (v : Nat) : Bytes := le 2 v

/-- Four bytes that hold `v` (R180). -/
def u32 (v : Nat) : Bytes := le 4 v

/-- A flag that takes a byte of its own, 1 when set and 0 when clear: R180 gives flags 1 byte and no code, DESIGN CHOICE,
log 33. A presence byte has the same two values (R180, R181). -/
def flag (b : Bool) : Bytes := u8 b.toNat

/-- A one-byte field whose absent value is 255 (R180). -/
def u8Absent (v : Option Nat) : Bytes := u8 (v.getD 255)

/-- A two-byte field whose absent value is 65535 (R180). -/
def u16Absent (v : Option Nat) : Bytes := u16 (v.getD 65535)

/-- A reel ID field, 0 when no reel is named (R180). -/
def reelField (v : Option Nat) : Bytes := u32 (v.getD 0)

/-- A field cut into consecutive fields of the given widths, each read as a number (R180). -/
def readFields : List Nat → Bytes → List Nat
  | [], _ => []
  | w :: ws, bs => ofLe (bs.take w) :: readFields ws (bs.drop w)

/-- Numbers laid out as consecutive fields of the given widths (R180). -/
def writeFields : List Nat → List Nat → Bytes
  | w :: ws, v :: vs => le w v ++ writeFields ws vs
  | _, _ => []

end Sys2Proof.Machine
end

