-- ==== Sys2Proof/Machine/Records.lean ====
section
/-! DEFINITION. The records that the retained store and the settings memory hold, as plain data, with the names of the
ports and transports that stand in them. -/

namespace Sys2Proof

/-- The six station ports (00 section 2.1). -/
inductive Port | p0 | p1 | p2 | p3 | p4 | p5
deriving DecidableEq, Repr

/-- The two scanner transports (00 section 2.2). -/
inductive Transport | t0 | t1
deriving DecidableEq, Repr

/-- A present zone record (R24). -/
structure Zone where
  first : Nat
  last : Nat
  /-- acclimatisation preset in minutes -/
  preset : Nat
  /-- exposure limit in minutes, 0 for none -/
  limit : Nat
deriving DecidableEq, Repr

/-- The items of the settings block (10 section 10.2). The image holds clamped values; a block read
from the settings memory may hold any (R176). -/
structure Settings where
  /-- the present zone records, by zone number; an absent record is not listed -/
  zones : Table Zone
  /-- camera cycle time of T0 in microseconds -/
  cycle0 : Nat
  /-- camera cycle time of T1 in microseconds -/
  cycle1 : Nat
  /-- shrinkage limit in basis points -/
  shrinkLimit : Nat
  gentle : Nat
  /-- threading timeout in seconds -/
  threading : Nat
  /-- first move wait in seconds -/
  firstWait : Nat
  reissue : Nat
deriving DecidableEq, Repr

end Sys2Proof

namespace Sys2Proof.Machine

/-! ### Reels, slots and move orders -/

/-- The gauge profiles (03 section 3.2). -/
inductive Gauge | g35x4 | g35x3 | g16x1
deriving DecidableEq, Repr

/-- The direction of a move, and of a fault (R9, R31). -/
inductive Direction | outbound | inbound
deriving DecidableEq, Repr

/-- The custody states (01 section 1.3), each with the fields of the reel record that are present in it:
the fault direction, the holder port, the resting time left and the threading time left. -/
inductive Custody
  | shelved
  | outbound
  /-- resting time left, in seconds -/
  | resting (secondsLeft : Nat)
  | ready
  /-- threading time left, in seconds -/
  | granted (holder : Port) (secondsLeft : Nat)
  | held (holder : Port)
  | inbound
  | moveFault (dir : Direction)
deriving DecidableEq, Repr

/-- The slot states, with the occupant in the three that name a reel (R26). -/
inductive Slot
  | free
  | occupied (reel : Nat)
  | away (reel : Nat)
  | reserved (reel : Nat)
  | blocked
  | unknown
deriving DecidableEq, Repr

/-- A WAITING order with the seconds left of its wait, or a FAULTED one (R31). -/
inductive OrderState
  | waiting (secondsLeft : Nat)
  | faulted
deriving DecidableEq, Repr

/-- A move order (R31). Source and destination are a slot number and a rack position, in the order that the
direction gives. -/
structure MoveOrder where
  reel : Nat
  number : Nat
  dir : Direction
  source : Nat
  dest : Nat
  attempt : Nat
  state : OrderState
deriving DecidableEq, Repr

/-! ### Defects, scenes and grades -/

/-- The kinds of defect (R95). -/
inductive DefectKind
  | missingPerf | edgeDamage | pitchBreak | missedCapture | tear | scratch | dirt | emulsionLoss
  | warp | splice
deriving DecidableEq, Repr

/-- The severities (R94). -/
inductive Severity | blocking | cosmetic
deriving DecidableEq, Repr

/-- The states of a defect entry, with the claimant in CLAIMED (R94). -/
inductive DefectState
  | opened
  | claimed (claimant : Port)
  | repaired
  | verified
  | deferred
  | removed
deriving DecidableEq, Repr

/-- Who raised a detection (R94). -/
inductive Origin
  | unit (t : Transport)
  | station (p : Port)
deriving DecidableEq, Repr

/-- A defect entry (R94). Its reel is the record on whose list it stands. -/
structure Defect where
  /-- the index of its place in the pool -/
  number : Nat
  first : Nat
  span : Nat
  kind : DefectKind
  severity : Severity
  origin : Origin
  state : DefectState
  attempts : Nat
  pass : Nat
  note : Option Nat
  generation : Bool
deriving DecidableEq, Repr

/-- Three lights, or three trims. -/
structure Channels (α : Type) where
  r : α
  g : α
  b : α
deriving DecidableEq, Repr

/-- A scene record (R130). -/
structure Scene where
  /-- the index of its place in the pool -/
  place : Nat
  start : Nat
  lights : Channels Nat
  fade : Nat
  generation : Bool
deriving DecidableEq, Repr

/-- A stored pitch estimate, in sixteenths of a micrometre, with its shrinkage in basis points (R87). -/
structure PitchFigures where
  estimate : Nat
  shrinkage : Int
deriving DecidableEq, Repr

/-- A reel record (01 section 1.2). The lists of its defect entries and scenes stand in it; the pools of
R92 and R130 are the lists of all records together. -/
structure Reel where
  id : Nat
  gauge : Gauge
  zone : Nat
  home : Option Nat
  current : Option Nat
  previous : Option Nat
  rack : Option Nat
  custody : Custody
  waiters : List Port
  lapsed : Option Port
  exposure : Nat
  exposureSeconds : Nat
  overexposed : Bool
  frameCount : Option Nat
  countConfirmed : Bool
  pitch : Option PitchFigures
  shrunk : Bool
  openCount : Nat
  blockingCount : Nat
  sceneCount : Nat
  trim : Channels Int
  gradeLocked : Bool
  gradedDone : Bool
  passNumber : Nat
  inspectCount : Nat
  lastOrder : Nat
  renumbering : Bool
  generation : Bool
  /-- the reel's list of defect entries, in list order (R93) -/
  defects : List Defect
  /-- the reel's scene list, by start frame (R130) -/
  scenes : List Scene
deriving DecidableEq, Repr

/-- The pending-renumber record (R118). -/
structure Renumber where
  reel : Nat
  f : Nat
  n : Nat
  target : Bool
deriving DecidableEq, Repr

/-- The contents of the retained store, its check value excluded (R174). In a reel record the working fields, and in a
move order the wait left, are not part of the store (`Reel.stored`, `MoveOrder.stored`): a start-up sets them anew. -/
structure Retained where
  reels : Table Reel
  slots : Table Slot
  rack : Table Nat
  orders : Table MoveOrder
  pendingRenumber : Option Renumber
  lostMark : Bool
deriving DecidableEq, Repr

/-- The settings block of the settings memory, with the 16-bit check over it (R176). -/
structure SettingsBlock where
  items : Settings
  check : BitVec 16
deriving DecidableEq, Repr

end Sys2Proof.Machine
end

