-- ==== Sys2Proof/Syntax.lean ====
section
/-! DEFINITION. The commands of the part: one constructor of `Instr` for each row of
spec/opcode_table.json, and the types of their operands.

A request carries the port that sends it and its arguments as the raw numbers of the request frame
(R180): an enumerated argument is the number of its byte, since an unknown number reaches the owner,
which answers BAD_REQUEST (R163). -/

namespace Sys2Proof

/-- The two levels of DIR, and the two senses of an encoder step (R45). -/
inductive Sense | forward | reverse
deriving DecidableEq, Repr

/-- What the settings memory answers when start-up reads the block and its check (R176). -/
inductive SettingsRead
  /-- the memory does not answer on the private bus -/
  | silent
  /-- the block and check that it held when the part last ran -/
  | asHeld
  /-- another block with its check, written into the memory from outside while the part was stopped -/
  | newBlock (b : Machine.SettingsBlock)
  /-- a block and check as this one reading gives them, while the memory goes on holding its own -/
  | misread (b : Machine.SettingsBlock)
deriving DecidableEq, Repr

/-- What a loss of power leaves in the battery-backed store (R174, R175). -/
inductive StoreLoss
  /-- the contents and the check value as they were -/
  | kept
  /-- other contents, with a check value that may match them or not -/
  | changed (contents : Machine.Retained) (check : BitVec 16)
deriving DecidableEq, Repr

/-- How far the resumption of a renumbering has come at start-up, in single changes (R119 to R125, R128). -/
inductive ResumeStage
  /-- the first `n` entries of the list are walked -/
  | entries (n : Nat)
  /-- the defect walk has ended, and the first `n` of the scenes that collide are deleted -/
  | deletions (n : Nat)
  /-- the collisions are deleted, and the first `n` scenes of the list are moved -/
  | moves (n : Nat)
  /-- the scenes are moved, and the fades of the first `n` of them are clamped -/
  | fades (n : Nat)
  /-- the reel update is made -/
  | updated
deriving DecidableEq, Repr

/-- How far a start-up has come, in the steps of R178 and the single changes that they make to retained records. -/
inductive StartStage
  /-- nothing is done yet -/
  | begun
  /-- step 1 has ended -/
  | checked
  /-- step 2: the settings are loaded, and the slots numbered below `n` are marked -/
  | marking (n : Nat)
  /-- step 3 -/
  | resuming (k : ResumeStage)
  /-- step 4: the first `n` reel records are reset, with the orders and reserved slots of those reels -/
  | records (n : Nat)
  /-- step 4: every reel record is reset, and the slots numbered below `n` are checked against the zone table; so also
  the end of step 4, and step 5, which changes no retained record -/
  | slots (n : Nat)
deriving DecidableEq, Repr

/-- What ends a start-up where it stands (R178). -/
inductive StartEnd
  | powerLoss (store : StoreLoss)
  | resetAsserted
deriving DecidableEq, Repr

/-- A start-up that is cut off: how far it comes, and what ends it (R178). -/
structure StartCut where
  stage : StartStage
  by_ : StartEnd
deriving DecidableEq, Repr

/-- A run of start-up: what the settings memory answers to it, and where it is cut off; `cut` is none when it comes to
its end (R176, R178). -/
structure StartRun where
  mem : SettingsRead
  cut : Option StartCut
deriving DecidableEq, Repr

/-- A stretch of the verification walk of a transport: `entries` is some n when the walk passes n more entries before the
part takes what comes next, be it a request or a reset, and none when it goes on to the last entry of the list (R109,
R110). -/
structure WalkRun where
  transport : Transport
  entries : Option Nat
deriving DecidableEq, Repr

/-- The commands of the part, in the order of spec/opcode_table.json. `breakNow`, `break0`, `break1` and
`dir` are the levels of BREAK and DIR that the command reads at its moment. -/
inductive Instr
  | powerOn (run : StartRun) (break0 break1 : Bool)
  | reset (run : StartRun) (break0 break1 : Bool)
  /-- `clocks`: bytes clocked after the third byte of the frame -/
  | fetch (p : Port) (clocks : Nat)
  | malformedFrame (p : Port) (frame : Bytes)
  | enrol (p : Port) (reel slot gauge home : Nat)
  | retire (p : Port) (reel : Nat)
  | recallReel (p : Port) (reel : Nat)
  | take (p : Port) (reel : Nat)
  | withdraw (p : Port) (reel : Nat)
  | mounted (p : Port) (reel : Nat)
  | release (p : Port) (reel : Nat)
  | returnReel (p : Port) (reel : Nat)
  | readReel (p : Port) (reel : Nat)
  | listReels (p : Port) (index count : Nat)
  | restingTimerExpiry (reel : Nat)
  | threadingTimerExpiry (reel : Nat)
  | exposureMinute (reel : Nat)
  | moveDone (p : Port) (reel order : Nat)
  | moveFailed (p : Port) (reel order : Nat)
  | moveWaitExpiry (reel : Nat)
  | locate (p : Port) (reel placeKind place : Nat)
  | slotReport (p : Port) (slot content reel : Nat)
  | blockSlot (p : Port) (slot : Nat)
  | unblockSlot (p : Port) (slot : Nat)
  | readSlots (p : Port) (area first count : Nat)
  /-- `time`: the suite timestamp at the edge -/
  | perfEdge (t : Transport) (time : Word32) (dir : Sense)
  | encoderStep (t : Transport) (sense : Sense)
  | breakAsserted (t : Transport)
  | reverseEdge (t : Transport)
  | setSpeed (p : Port) (code : Nat)
  | clearBreak (p : Port) (breakNow : Bool)
  | startPass (p : Port) (kind f0 endFrame : Nat)
  | endPass (p : Port) (tail : Nat)
  | closePass (p : Port)
  | verificationWalk (w : WalkRun)
  | readPass (p : Port) (transport : Nat)
  | reportDefect (p : Port) (reel f span kind severity noteGiven note : Nat)
  | claim (p : Port) (entry : Nat)
  | unclaim (p : Port) (entry : Nat)
  | reportRepair (p : Port) (entry : Nat)
  | deferEntry (p : Port) (entry : Nat)
  | readDefects (p : Port) (reel index count : Nat)
  | purgeVerified (p : Port) (reel : Nat)
  | markSplice (p : Port) (reel f : Nat)
  | removeFrames (p : Port) (reel f n : Nat)
  | defectWalk
  | sceneWalk
  | setScene (p : Port) (reel start r g b fade hold : Nat)
  | deleteScene (p : Port) (reel start hold : Nat)
  | setTrim (p : Port) (reel : Nat) (r g b : Int) (hold : Nat)
  | abandonEdit (p : Port)
  | lockGrade (p : Port) (reel : Nat)
  | unlockGrade (p : Port) (reel : Nat)
  | readScenes (p : Port) (reel index count : Nat)
  | previewLights (p : Port) (reel frame : Nat)
  | clearAlert (p : Port) (code reel : Nat)
  | readAlerts (p : Port)
  | suiteMinute
  | readSettings (p : Port)
  /-- `value`: the 8-byte value field read as one little-endian number -/
  | writeSetting (p : Port) (item zone value : Nat)
  /-- `answered`: whether the settings memory took the block -/
  | writeBackDone (answered : Bool)
  | fetchNotice (p : Port)
  | clearFlags (p : Port) (mask : Nat)
  | resetPort (p : Port)
  | resetAsserted
  /-- `store`: what the battery-backed store holds at the next power-on -/
  | powerLoss (store : StoreLoss)
deriving DecidableEq, Repr

/-- The request kinds, in the order in which the table of R171 names them (R180). -/
inductive ReqKind
  | enrol | readReel | listReels | retire | recallReel | returnReel | take | mounted | release | withdraw
  | moveDone | moveFailed | locate | slotReport | blockSlot | unblockSlot | readSlots | setSpeed
  | clearBreak | startPass | endPass | closePass | readPass | reportDefect | claim | unclaim
  | reportRepair | deferEntry | purgeVerified | readDefects | markSplice | removeFrames | setScene
  | deleteScene | setTrim | abandonEdit | lockGrade | unlockGrade | readScenes | previewLights
  | clearAlert | readAlerts | readSettings | writeSetting | fetchNotice | clearFlags | resetPort
deriving DecidableEq, Repr

end Sys2Proof
end

