-- ==== Sys2Proof/WellFormed.lean ====
section
/-! DEFINITION. Which commands the outside can send: every number fits its field of the request frame
(R180), a read of the settings memory gives a table of zones 0 to 7, a changed store holds records in places that
exist, and a malformed frame is not empty. The meanings are total: they answer on ill-formed commands too. -/

namespace Sys2Proof

/-- The number fits a field of `n` bytes. -/
abbrev fits (n v : Nat) : Prop := v < 256 ^ n

/-- The number fits a signed byte. -/
abbrev fitsSigned (v : Int) : Prop := -128 ≤ v ∧ v ≤ 127

/-- Zone numbers rise strictly and lie in 0 to 7 (R24). -/
abbrev zonesOrdered (z : Table Zone) : Prop :=
  z.Pairwise (fun a b => a.1 < b.1) ∧ ∀ e ∈ z, e.1 < 8

/-- What the settings memory can answer (R176). -/
abbrev SettingsRead.wellFormed : SettingsRead → Prop
  | .silent => True
  | .asHeld => True
  | .newBlock b => zonesOrdered b.items.zones
  | .misread b => zonesOrdered b.items.zones

/-- The places of a table rise strictly and lie below a limit. -/
abbrev placesWithin {α : Type} (limit : Nat) (m : Table α) : Prop :=
  m.Pairwise (fun a b => a.1 < b.1) ∧ ∀ e ∈ m, e.1 < limit

/-- The tables of a retained store have the places that the spec gives them, and a slot that is listed is not UNKNOWN
(R1, R26, R28, R31). -/
abbrev Machine.Retained.wellFormed (c : Machine.Retained) : Prop :=
  placesWithin 48 c.reels ∧ placesWithin 1024 c.slots ∧ placesWithin 16 c.rack ∧ placesWithin 16 c.orders ∧
    ∀ e ∈ c.slots, e.2 ≠ .unknown

/-- What a loss of power can leave in the store (R174). -/
abbrev StoreLoss.wellFormed : StoreLoss → Prop
  | .kept => True
  | .changed contents _ => contents.wellFormed

/-- How a start-up can be cut off (R178). -/
abbrev StartCut.wellFormed (c : StartCut) : Prop :=
  match c.by_ with
  | .powerLoss store => store.wellFormed
  | .resetAsserted => True

/-- What a run of start-up can meet (R176, R178). -/
abbrev StartRun.wellFormed (run : StartRun) : Prop :=
  run.mem.wellFormed ∧ ∀ c ∈ run.cut, c.wellFormed

/-- The command can be sent: its numbers fit their fields (R180). -/
abbrev Instr.wellFormed : Instr → Prop
  | .powerOn run _ _ => run.wellFormed
  | .reset run _ _ => run.wellFormed
  | .fetch _ _ => True
  | .malformedFrame _ frame => frame ≠ []
  | .enrol _ reel slot gauge home => fits 4 reel ∧ fits 2 slot ∧ fits 1 gauge ∧ fits 1 home
  | .retire _ reel => fits 4 reel
  | .recallReel _ reel => fits 4 reel
  | .take _ reel => fits 4 reel
  | .withdraw _ reel => fits 4 reel
  | .mounted _ reel => fits 4 reel
  | .release _ reel => fits 4 reel
  | .returnReel _ reel => fits 4 reel
  | .readReel _ reel => fits 4 reel
  | .listReels _ index count => fits 1 index ∧ fits 2 count
  | .restingTimerExpiry reel => fits 4 reel
  | .threadingTimerExpiry reel => fits 4 reel
  | .exposureMinute reel => fits 4 reel
  | .moveDone _ reel order => fits 4 reel ∧ fits 1 order
  | .moveFailed _ reel order => fits 4 reel ∧ fits 1 order
  | .moveWaitExpiry reel => fits 4 reel
  | .locate _ reel placeKind place => fits 4 reel ∧ fits 1 placeKind ∧ fits 2 place
  | .slotReport _ slot content reel => fits 2 slot ∧ fits 1 content ∧ fits 4 reel
  | .blockSlot _ slot => fits 2 slot
  | .unblockSlot _ slot => fits 2 slot
  | .readSlots _ area first count => fits 1 area ∧ fits 2 first ∧ fits 2 count
  | .perfEdge _ _ _ => True
  | .encoderStep _ _ => True
  | .breakAsserted _ => True
  | .reverseEdge _ => True
  | .setSpeed _ code => fits 1 code
  | .clearBreak _ _ => True
  | .startPass _ kind f0 endFrame => fits 1 kind ∧ fits 2 f0 ∧ fits 2 endFrame
  | .endPass _ tail => fits 1 tail
  | .closePass _ => True
  | .verificationWalk _ => True
  | .readPass _ transport => fits 1 transport
  | .reportDefect _ reel f span kind severity noteGiven note =>
      fits 4 reel ∧ fits 2 f ∧ fits 2 span ∧ fits 1 kind ∧ fits 1 severity ∧ fits 1 noteGiven ∧ fits 2 note
  | .claim _ entry => fits 2 entry
  | .unclaim _ entry => fits 2 entry
  | .reportRepair _ entry => fits 2 entry
  | .deferEntry _ entry => fits 2 entry
  | .readDefects _ reel index count => fits 4 reel ∧ fits 2 index ∧ fits 2 count
  | .purgeVerified _ reel => fits 4 reel
  | .markSplice _ reel f => fits 4 reel ∧ fits 2 f
  | .removeFrames _ reel f n => fits 4 reel ∧ fits 2 f ∧ fits 2 n
  | .defectWalk => True
  | .sceneWalk => True
  | .setScene _ reel start r g b fade hold =>
      fits 4 reel ∧ fits 2 start ∧ fits 1 r ∧ fits 1 g ∧ fits 1 b ∧ fits 1 fade ∧ fits 1 hold
  | .deleteScene _ reel start hold => fits 4 reel ∧ fits 2 start ∧ fits 1 hold
  | .setTrim _ reel r g b hold => fits 4 reel ∧ fitsSigned r ∧ fitsSigned g ∧ fitsSigned b ∧ fits 1 hold
  | .abandonEdit _ => True
  | .lockGrade _ reel => fits 4 reel
  | .unlockGrade _ reel => fits 4 reel
  | .readScenes _ reel index count => fits 4 reel ∧ fits 2 index ∧ fits 2 count
  | .previewLights _ reel frame => fits 4 reel ∧ fits 2 frame
  | .clearAlert _ code reel => fits 1 code ∧ fits 4 reel
  | .readAlerts _ => True
  | .suiteMinute => True
  | .readSettings _ => True
  | .writeSetting _ item zone value => fits 1 item ∧ fits 1 zone ∧ fits 8 value
  | .writeBackDone _ => True
  | .fetchNotice _ => True
  | .clearFlags _ mask => fits 1 mask
  | .resetPort _ => True
  | .resetAsserted => True
  | .powerLoss store => store.wellFormed

end Sys2Proof
end

