-- ==== Sys2Proof/Decode.lean ====
section
/-! DEFINITION. Request frames: the bytes of one select frame read as a command, and a command written as
the bytes of its frame (R161, R163, R180). No row of spec/opcode_table.json gives bits, so no word of the
table spells a command (`decodeTableWord`). -/

namespace Sys2Proof

open Machine

/-- Every request kind, in the order of its code (R180). -/
def ReqKind.all : List ReqKind :=
  [.enrol, .readReel, .listReels, .retire, .recallReel, .returnReel, .take, .mounted, .release, .withdraw,
   .moveDone, .moveFailed, .locate, .slotReport, .blockSlot, .unblockSlot, .readSlots, .setSpeed,
   .clearBreak, .startPass, .endPass, .closePass, .readPass, .reportDefect, .claim, .unclaim,
   .reportRepair, .deferEntry, .purgeVerified, .readDefects, .markSplice, .removeFrames, .setScene,
   .deleteScene, .setTrim, .abandonEdit, .lockGrade, .unlockGrade, .readScenes, .previewLights,
   .clearAlert, .readAlerts, .readSettings, .writeSetting, .fetchNotice, .clearFlags, .resetPort]

/-- The kind byte of a request: 1 for ENROL to 47 for RESET_PORT (R180). -/
def ReqKind.code (k : ReqKind) : Nat := ReqKind.all.idxOf k + 1

/-- The request kind that a kind byte names; none for FETCH (0) and for an unknown kind (R163, R180). -/
def reqKindOf : Nat → Option ReqKind
  | 0 => none
  | n + 1 => ReqKind.all[n]?

/-- The widths in bytes of the arguments of a request, in the order of its frame (R180). An optional argument whose
every value is valid has its presence byte before it. DEDUCED, log 12. -/
def ReqKind.widths : ReqKind → List Nat
  | .enrol => [4, 2, 1, 1]
  | .readReel => [4]
  | .listReels => [1, 2]
  | .retire => [4]
  | .recallReel => [4]
  | .returnReel => [4]
  | .take => [4]
  | .mounted => [4]
  | .release => [4]
  | .withdraw => [4]
  | .moveDone => [4, 1]
  | .moveFailed => [4, 1]
  | .locate => [4, 1, 2]
  | .slotReport => [2, 1, 4]
  | .blockSlot => [2]
  | .unblockSlot => [2]
  | .readSlots => [1, 2, 2]
  | .setSpeed => [1]
  | .clearBreak => []
  | .startPass => [1, 2, 2]
  | .endPass => [1]
  | .closePass => []
  | .readPass => [1]
  | .reportDefect => [4, 2, 2, 1, 1, 1, 2]
  | .claim => [2]
  | .unclaim => [2]
  | .reportRepair => [2]
  | .deferEntry => [2]
  | .purgeVerified => [4]
  | .readDefects => [4, 2, 2]
  | .markSplice => [4, 2]
  | .removeFrames => [4, 2, 2]
  | .setScene => [4, 2, 1, 1, 1, 1, 1]
  | .deleteScene => [4, 2, 1]
  | .setTrim => [4, 1, 1, 1, 1]
  | .abandonEdit => []
  | .lockGrade => [4]
  | .unlockGrade => [4]
  | .readScenes => [4, 2, 2]
  | .previewLights => [4, 2]
  | .clearAlert => [1, 4]
  | .readAlerts => []
  | .readSettings => []
  | .writeSetting => [1, 1, 8]
  | .fetchNotice => []
  | .clearFlags => [1]
  | .resetPort => []

/-- The fixed body length of a request kind: the sum of the widths of its arguments (R180). -/
def ReqKind.bodyLength (k : ReqKind) : Nat := k.widths.sum

/-- The request of a port with the arguments of its frame, each a number (R180). `breakNow` is the level of
BREAK on the port's transport when the request is taken, which only CLEAR_BREAK reads. -/
def requestOf (breakNow : Bool) (p : Port) : ReqKind → List Nat → Option Instr
  | .enrol, [reel, slot, gauge, home] => some (.enrol p reel slot gauge home)
  | .readReel, [reel] => some (.readReel p reel)
  | .listReels, [index, count] => some (.listReels p index count)
  | .retire, [reel] => some (.retire p reel)
  | .recallReel, [reel] => some (.recallReel p reel)
  | .returnReel, [reel] => some (.returnReel p reel)
  | .take, [reel] => some (.take p reel)
  | .mounted, [reel] => some (.mounted p reel)
  | .release, [reel] => some (.release p reel)
  | .withdraw, [reel] => some (.withdraw p reel)
  | .moveDone, [reel, order] => some (.moveDone p reel order)
  | .moveFailed, [reel, order] => some (.moveFailed p reel order)
  | .locate, [reel, kind, place] => some (.locate p reel kind place)
  | .slotReport, [slot, content, reel] => some (.slotReport p slot content reel)
  | .blockSlot, [slot] => some (.blockSlot p slot)
  | .unblockSlot, [slot] => some (.unblockSlot p slot)
  | .readSlots, [area, first, count] => some (.readSlots p area first count)
  | .setSpeed, [code] => some (.setSpeed p code)
  | .clearBreak, [] => some (.clearBreak p breakNow)
  | .startPass, [kind, f0, endFrame] => some (.startPass p kind f0 endFrame)
  | .endPass, [tail] => some (.endPass p tail)
  | .closePass, [] => some (.closePass p)
  | .readPass, [transport] => some (.readPass p transport)
  | .reportDefect, [reel, f, span, kind, severity, noteGiven, note] =>
      some (.reportDefect p reel f span kind severity noteGiven note)
  | .claim, [entry] => some (.claim p entry)
  | .unclaim, [entry] => some (.unclaim p entry)
  | .reportRepair, [entry] => some (.reportRepair p entry)
  | .deferEntry, [entry] => some (.deferEntry p entry)
  | .purgeVerified, [reel] => some (.purgeVerified p reel)
  | .readDefects, [reel, index, count] => some (.readDefects p reel index count)
  | .markSplice, [reel, f] => some (.markSplice p reel f)
  | .removeFrames, [reel, f, n] => some (.removeFrames p reel f n)
  | .setScene, [reel, start, r, g, b, fade, hold] => some (.setScene p reel start r g b fade hold)
  | .deleteScene, [reel, start, hold] => some (.deleteScene p reel start hold)
  | .setTrim, [reel, r, g, b, hold] =>
      some (.setTrim p reel (signedByte r) (signedByte g) (signedByte b) hold)
  | .abandonEdit, [] => some (.abandonEdit p)
  | .lockGrade, [reel] => some (.lockGrade p reel)
  | .unlockGrade, [reel] => some (.unlockGrade p reel)
  | .readScenes, [reel, index, count] => some (.readScenes p reel index count)
  | .previewLights, [reel, frame] => some (.previewLights p reel frame)
  | .clearAlert, [code, reel] => some (.clearAlert p code reel)
  | .readAlerts, [] => some (.readAlerts p)
  | .readSettings, [] => some (.readSettings p)
  | .writeSetting, [item, zone, value] => some (.writeSetting p item zone value)
  | .fetchNotice, [] => some (.fetchNotice p)
  | .clearFlags, [mask] => some (.clearFlags p mask)
  | .resetPort, [] => some (.resetPort p)
  | _, _ => none

/-- The port, kind and arguments of a command that is a request; none for any other command. -/
def Instr.request : Instr → Option (Port × ReqKind × List Nat)
  | .enrol p reel slot gauge home => some (p, .enrol, [reel, slot, gauge, home])
  | .readReel p reel => some (p, .readReel, [reel])
  | .listReels p index count => some (p, .listReels, [index, count])
  | .retire p reel => some (p, .retire, [reel])
  | .recallReel p reel => some (p, .recallReel, [reel])
  | .returnReel p reel => some (p, .returnReel, [reel])
  | .take p reel => some (p, .take, [reel])
  | .mounted p reel => some (p, .mounted, [reel])
  | .release p reel => some (p, .release, [reel])
  | .withdraw p reel => some (p, .withdraw, [reel])
  | .moveDone p reel order => some (p, .moveDone, [reel, order])
  | .moveFailed p reel order => some (p, .moveFailed, [reel, order])
  | .locate p reel kind place => some (p, .locate, [reel, kind, place])
  | .slotReport p slot content reel => some (p, .slotReport, [slot, content, reel])
  | .blockSlot p slot => some (p, .blockSlot, [slot])
  | .unblockSlot p slot => some (p, .unblockSlot, [slot])
  | .readSlots p area first count => some (p, .readSlots, [area, first, count])
  | .setSpeed p code => some (p, .setSpeed, [code])
  | .clearBreak p _ => some (p, .clearBreak, [])
  | .startPass p kind f0 endFrame => some (p, .startPass, [kind, f0, endFrame])
  | .endPass p tail => some (p, .endPass, [tail])
  | .closePass p => some (p, .closePass, [])
  | .readPass p transport => some (p, .readPass, [transport])
  | .reportDefect p reel f span kind severity noteGiven note =>
      some (p, .reportDefect, [reel, f, span, kind, severity, noteGiven, note])
  | .claim p entry => some (p, .claim, [entry])
  | .unclaim p entry => some (p, .unclaim, [entry])
  | .reportRepair p entry => some (p, .reportRepair, [entry])
  | .deferEntry p entry => some (p, .deferEntry, [entry])
  | .purgeVerified p reel => some (p, .purgeVerified, [reel])
  | .readDefects p reel index count => some (p, .readDefects, [reel, index, count])
  | .markSplice p reel f => some (p, .markSplice, [reel, f])
  | .removeFrames p reel f n => some (p, .removeFrames, [reel, f, n])
  | .setScene p reel start r g b fade hold => some (p, .setScene, [reel, start, r, g, b, fade, hold])
  | .deleteScene p reel start hold => some (p, .deleteScene, [reel, start, hold])
  | .setTrim p reel r g b hold =>
      some (p, .setTrim, [reel, byteOfSigned r, byteOfSigned g, byteOfSigned b, hold])
  | .abandonEdit p => some (p, .abandonEdit, [])
  | .lockGrade p reel => some (p, .lockGrade, [reel])
  | .unlockGrade p reel => some (p, .unlockGrade, [reel])
  | .readScenes p reel index count => some (p, .readScenes, [reel, index, count])
  | .previewLights p reel frame => some (p, .previewLights, [reel, frame])
  | .clearAlert p code reel => some (p, .clearAlert, [code, reel])
  | .readAlerts p => some (p, .readAlerts, [])
  | .readSettings p => some (p, .readSettings, [])
  | .writeSetting p item zone value => some (p, .writeSetting, [item, zone, value])
  | .fetchNotice p => some (p, .fetchNotice, [])
  | .clearFlags p mask => some (p, .clearFlags, [mask])
  | .resetPort p => some (p, .resetPort, [])
  | .powerOn _ _ _ => none
  | .reset _ _ _ => none
  | .fetch _ _ => none
  | .malformedFrame _ _ => none
  | .restingTimerExpiry _ => none
  | .threadingTimerExpiry _ => none
  | .exposureMinute _ => none
  | .moveWaitExpiry _ => none
  | .perfEdge _ _ _ => none
  | .encoderStep _ _ => none
  | .breakAsserted _ => none
  | .reverseEdge _ => none
  | .verificationWalk _ => none
  | .defectWalk => none
  | .sceneWalk => none
  | .suiteMinute => none
  | .writeBackDone _ => none
  | .resetAsserted => none
  | .powerLoss _ => none

/-- The level of BREAK that a command brings with it; only CLEAR_BREAK reads one among the requests (R67). -/
def Instr.breakSample : Instr → Bool
  | .clearBreak _ breakNow => breakNow
  | _ => false

/-- The frame check of R163 on the bytes of one select frame: a known request kind, the body length field
equal to the fixed length of the kind and to the bytes received. -/
def frameRequest (frame : Bytes) : Option (ReqKind × List Nat) :=
  match frame with
  | kind :: l0 :: l1 :: body =>
    match reqKindOf kind.toNat with
    | some k =>
      if ofLe [l0, l1] = k.bodyLength ∧ body.length = k.bodyLength then some (k, readFields k.widths body)
      else none
    | none => none
  | _ => none

/-- The command that the bytes of one select frame of a port make: none for a select frame with no byte; a
fetch when the kind is FETCH and the body length field 0, judged at the third byte, the further bytes only
clocking data out; a request when the frame check passes; a malformed frame otherwise (R161, R162, R163). That a
FETCH kind byte in a frame that ends before its third byte makes a malformed frame is a DESIGN CHOICE, log 29. -/
def decodeFrame (breakNow : Bool) (p : Port) (frame : Bytes) : Option Instr :=
  if frame = [] then none
  else if 3 ≤ frame.length ∧ frame.take 3 = [0, 0, 0] then some (.fetch p (frame.length - 3))
  else match frameRequest frame with
    | some (k, args) => requestOf breakNow p k args
    | none => some (.malformedFrame p frame)

/-- The bytes of the select frame that makes a command; none for a command that is no frame (R180). -/
def encodeFrame (i : Instr) : Option Bytes :=
  match i with
  | .fetch _ clocks => some ([0, 0, 0] ++ List.replicate clocks 0)
  | .malformedFrame _ frame => some frame
  | i => match i.request with
    | some (_, k, args) => some (u8 k.code ++ u16 k.bodyLength ++ writeFields k.widths args)
    | none => none

/-- The command that a table word spells. No row of spec/opcode_table.json gives bits ("fields": []), so no
word spells a command. -/
def decodeTableWord (_nbits _w : Nat) : Option Instr := none

end Sys2Proof
end

