-- ==== Sys2Proof/Machine/Arith.lean ====
section
/-! DEFINITION. The arithmetic terms of section 5.3 of the scope file. -/

namespace Sys2Proof.Machine

/-- clamp(x, a, b) on natural numbers (00 section 5.3). -/
def clampNat (x a b : Nat) : Nat := if x < a then a else if b < x then b else x

/-- clamp(x, a, b) on integers (00 section 5.3). -/
def clampInt (x a b : Int) : Int := if x < a then a else if b < x then b else x

/-- `num / den` rounded to nearest, halves away from zero (00 section 5.3). -/
def roundAway (num : Int) (den : Nat) : Int :=
  if 0 ≤ num then (((2 * num.natAbs + den) / (2 * den) : Nat) : Int)
  else -(((2 * num.natAbs + den) / (2 * den) : Nat) : Int)

/-- A count that saturates at `top` (00 section 5.3). -/
def satSucc (top v : Nat) : Nat := if v < top then v + 1 else top

end Sys2Proof.Machine
end

