-- ==== Sys2Proof/Config.lean ====
section
/-! DEFINITION. The sizes that the spec fixes in the part, and the two layouts that it leaves inside the part: which
16-bit words the retained store and the settings block are made of. -/

namespace Sys2Proof.Config

/-- Record places of the reel table (R1). -/
def reelPlaces : Nat := 48
/-- Slots of the cold store (R26). -/
def slotPlaces : Nat := 1024
/-- Positions of the rest rack, and places of the move order table (R28, R31). -/
def rackPositions : Nat := 16
/-- Zone records of the settings block (R24). -/
def zoneRecords : Nat := 8
/-- Ports that one wait queue holds (R11). -/
def waitPlaces : Nat := 3
/-- Entry places of the defect pool (R92). -/
def defectPlaces : Nat := 4096
/-- Entries that one reel may hold in the pool (R92). -/
def reelDefects : Nat := 1024
/-- Free entry places below which DEFECT_POOL_FULL holds (R100). -/
def defectMargin : Nat := 64
/-- Record places of the scene pool (R130). -/
def scenePlaces : Nat := 2048
/-- Scenes that one reel may hold (R130). -/
def reelScenes : Nat := 512
/-- Free scene places below which SCENE_POOL_FULL holds (R132). -/
def sceneMargin : Nat := 32
/-- Edits that the held-edit buffer holds (R138). -/
def heldEdits : Nat := 32
/-- Alerts other than BOARD_FULL that the board takes (R154). -/
def boardAlerts : Nat := 23
/-- The other count at which BOARD_FULL leaves the board (R155). -/
def boardReopens : Nat := 19
/-- Queue entries that ordinary notices may take (R167). -/
def noticeEntries : Nat := 15
/-- Bytes of a reply body (R165). -/
def replyBytes : Nat := 512
/-- The greatest frame number (00 section 5.2). -/
def lastFrame : Nat := 65534

/-- The contents of the retained store taken as 16-bit words. The spec gives no layout (R174), so the words are free: no
statement can rest on them. DESIGN CHOICE, log 6. -/
opaque storeWords : Machine.Retained → List (BitVec 16)

/-- The settings block taken as 16-bit words. The placement of the items is fixed inside the part and is not seen
(R176), so the words are free. DESIGN CHOICE, log 6. -/
opaque blockWords : Settings → List (BitVec 16)

end Sys2Proof.Config
end

