-- ==== Sys2Proof/Machine/State.lean ====
section
/-! DEFINITION. The state of the part: every record the spec gives it, as plain data, and the part right
after its reset. -/

namespace Sys2Proof.Machine

/-- Nothing the spec describes stops the part: every frame, edge, timer event and start has a stated effect,
so there is no fault. The type has no constructor (safe: no claim can be proved from a stop). -/
inductive Fault
deriving DecidableEq, Repr

/-- Why a command has no meaning in the model. -/
inductive Refusal
  /-- Raised by `exec` for a command whose meaning is not written yet. Safe: nothing is claimed of it. No arm
  of the finished model raises it. -/
  | notModelled (mnemonic : String)
deriving DecidableEq, Repr

/-- The supply and the RESET input (R178). -/
inductive Phase
  /-- the ports are open -/
  | running
  /-- RESET is asserted: the ports are closed and all work is stopped -/
  | resetHeld
  /-- there is no supply power -/
  | unpowered
deriving DecidableEq, Repr

/-- One value for each port. -/
structure PerPort (α : Type) where
  p0 : α
  p1 : α
  p2 : α
  p3 : α
  p4 : α
  p5 : α
deriving DecidableEq, Repr

/-- One value for each transport. -/
structure PerTransport (α : Type) where
  t0 : α
  t1 : α
deriving DecidableEq, Repr

/-! ### Codes -/

/-- The result codes, in the order of section 9.8 (R173). -/
inductive ResultCode
  | ok | accepted | queued | clamped
  | badRequest | notPermitted
  | noSuchReel | noSuchEntry | noSuchScene
  | wrongState | notHolder | holdsOther | queueFull | waiters | lapsed | overExposed
  | stagingFull | zoneFull | tableFull | poolFull | inUse | duplicate | staleOrder
  | passActive | breakActive | blockingDefects | countUnconfirmed
  | gradeLocked | renumbering | editOpen | openDefects | outOfRange
  | stillActive
deriving DecidableEq, Repr

/-- The alert codes, in the order of R152. -/
inductive AlertCode
  | filmBreak | registrationFailed | overspeed | shrinkage | repairExhausted | frameCountChanged
  | zoneFull | retainedLost | settingsDefaulted | exposureLimit | moveFault | defectPoolFull
  | scenePoolFull | boardFull
deriving DecidableEq, Repr

/-! ### Held edits and renumbering -/

/-- A held edit, its numbers clamped (R138). -/
inductive Edit
  | setScene (start : Nat) (lights : Channels Nat) (fade : Nat)
  | deleteScene (start : Nat)
  | setTrim (trim : Channels Int)
deriving DecidableEq, Repr

/-- The held-edit buffer when it is not empty (R138). -/
structure HeldEdits where
  reel : Nat
  edits : List Edit
deriving DecidableEq, Repr

/-- The step that an accepted renumbering has come to (R119). -/
inductive RenumberStage
  | defectWalk
  | sceneWalk
deriving DecidableEq, Repr

/-- A renumbering at work: the step it has come to and the bench whose request was accepted (R119, R125). -/
structure RenumberWork where
  stage : RenumberStage
  bench : Port
deriving DecidableEq, Repr

/-! ### Registration units and passes -/

/-- The registration states (R48). -/
inductive RegState | idle | armed | locked | reacquire
deriving DecidableEq, Repr

/-- Count, position and time of the last accepted edge (R48). -/
structure Track where
  count : Nat
  position : Word32
  time : Word32
deriving DecidableEq, Repr

/-- The fields of a registration unit that describe one pass: the upper part of the table of R48. -/
structure UnitRun where
  reel : Nat
  gauge : Gauge
  f0 : Nat
  /-- the pitch estimate P, in sixteenths of a micrometre -/
  pitch : Nat
  track : Option Track
  accepted : Nat
  spurious : Nat
  lastEdgeDamage : Option Nat
  lockRun : Nat
  intervals : Nat
  reacquired : Bool
  exhausted : Bool
deriving DecidableEq, Repr

/-- A registration unit (R48). -/
structure RegUnit where
  state : RegState
  run : Option UnitRun
  breakLatch : Bool
  abortHold : Bool
  setCode : Nat
  encoder : Word32
deriving DecidableEq, Repr

/-- A frame tag (R80). -/
structure FrameTag where
  transport : Transport
  reel : Nat
  pass : Nat
  frame : Nat
  lights : Channels Nat
  gains : Channels Nat
  sceneStart : Bool
  inFade : Bool
  defectHere : Bool
  reacquired : Bool
  shrinkage : Int
deriving DecidableEq, Repr

/-- The lines of one transport: the levels of DIR and BREAK last read, the CAPTURE pulses given, and the tags on
TAG that have not left whole yet, in order (R46, R82). DESIGN CHOICE, log 5. -/
structure Lines where
  dirLine : Sense
  breakLine : Bool
  capturePulses : Nat
  tags : List FrameTag
deriving DecidableEq, Repr

/-- The kinds of pass (R70). -/
inductive PassKind | inspect | graded
deriving DecidableEq, Repr

/-- The states of a pass record (R71). -/
inductive PassState | armed | running | ended | closing
deriving DecidableEq, Repr

/-- The abort causes (R70). -/
inductive AbortCause | filmBreak | registrationFailed | reversed
deriving DecidableEq, Repr

/-- The end reasons, with the cause of an abort (R70). -/
inductive EndReason
  | complete
  | stopped
  | aborted (cause : AbortCause)
deriving DecidableEq, Repr

/-- A pass record (R70). -/
structure Pass where
  kind : PassKind
  reel : Nat
  number : Nat
  f0 : Nat
  endFrame : Option Nat
  state : PassState
  reason : Option EndReason
  tail : Option Bool
  highest : Option Nat
  lastCaptured : Option Nat
  captured : Nat
  missed : Nat
  spurious : Nat
  defectsRaised : Nat
  misses : Nat
  exhausted : Bool
  frozenTrim : Option (Channels Int)
  /-- the reacquired mark of a boundary whose capture was skipped, kept for the next capture (R80). The model's own
  field, log 14: no reply and no notice shows it. -/
  carriedMark : Bool
  /-- the entries of the reel's list that the verification walk has passed (R109, R110) -/
  walked : Nat
  /-- the entries that the walk has verified so far (R109) -/
  verified : Nat
deriving DecidableEq, Repr

/-! ### Alerts, notices and ports -/

/-- The transport or port that an alert names (R151). -/
inductive AlertPlace
  | transport (t : Transport)
  | port (p : Port)
deriving DecidableEq, Repr

/-- An alert of the board; its kind is fixed by its code (R151). -/
structure Alert where
  code : AlertCode
  reel : Option Nat
  place : Option AlertPlace
  minute : Nat
  count : Nat
deriving DecidableEq, Repr

/-- The code of a START notice (R170, R179). -/
inductive StartCode
  | ok
  | degraded (retainedLost settingsDefaulted : Bool)
  | portReset
deriving DecidableEq, Repr

/-- Why a port left a wait queue (R11). -/
inductive DropReason | exposure | shelved | grantedOther
deriving DecidableEq, Repr

/-- Why held edits were discarded (R141). -/
inductive AbandonCause | otherReel | removeFrames | retire
deriving DecidableEq, Repr

/-- The notices that blocks place (09 section 9.6); the overflow marker is a field of the queue. -/
inductive Notice
  | start (code : StartCode)
  | alertRaised (code : AlertCode) (reel : Option Nat) (at_ : Option AlertPlace) (place : Nat)
  | alertCleared (code : AlertCode) (reel : Option Nat) (count : Nat) (by_ : Option Port)
  | granted (reel timeout : Nat)
  | lapsed (reel : Nat)
  | queueDropped (reel : Nat) (reason : DropReason)
  | renumberDone (reel frameCount : Nat)
  | editAbandoned (reel edits : Nat) (cause : AbandonCause)
  | gradeUnlocked (reel : Nat)
  | moveOrder (o : MoveOrder) (wait : Nat)
  | passEnded (t : Transport) (pass : Pass)
  | passClosed (t : Transport) (pass : Pass) (verified : Nat) (frameCount : Option Nat) (confirmed : Bool)
deriving DecidableEq, Repr

/-- The overflow marker: its drop count and the kind code of the first notice dropped (R168). -/
structure Marker where
  drops : Nat
  kind : Nat
deriving DecidableEq, Repr

/-- The port flags (R166). -/
structure PortFlags where
  discarded : Bool
  ignored : Bool
  lost : Bool
deriving DecidableEq, Repr

/-- A reply as it was placed: the fields of its header and its body (R165). -/
structure Reply where
  code : ResultCode
  notices : Nat
  alerts : Nat
  lead : Option AlertCode
  flags : PortFlags
  body : Bytes
deriving DecidableEq, Repr

/-- The link state of a port, with the reply slot in REPLY (R162, R172). -/
inductive PortStatus
  | closed
  | idle
  | working
  | reply (r : Reply)
deriving DecidableEq, Repr

/-- A station port (R162 to R168). -/
structure PortState where
  status : PortStatus
  /-- the ordinary notices, oldest first -/
  notices : List Notice
  /-- the overflow marker, which stands after every ordinary notice -/
  marker : Option Marker
  flags : PortFlags
  /-- the reply bytes sent on data out in the last select frame after its first three bytes; every other byte of a
  frame is sent at the idle level, 255 (`PortState.dataOutByte`, R161, R180) -/
  dataOut : Bytes
deriving DecidableEq, Repr

/-! ### Settings -/

/-- The load outcome of the settings block (R177). -/
inductive LoadOutcome | valid | defaulted
deriving DecidableEq, Repr

/-- A WRITE_SETTING as it reached the settings interface (R177). -/
structure SettingRequest where
  port : Port
  item : Nat
  zone : Nat
  value : Nat
deriving DecidableEq, Repr

/-- A write-back in progress: the request it will answer, whether its value was clamped, and the image as it
stood when the write-back began, with the item as applied in it (R177). -/
structure WriteBack where
  request : SettingRequest
  clamped : Bool
  image : Settings
deriving DecidableEq, Repr

/-- The state of the part. -/
structure State where
  phase : Phase
  /-- the suite timestamp in microseconds, as last read (R45); DESIGN CHOICE, log 4: 0 at reset -/
  timestamp : Word32
  suiteMinute : Nat
  suiteSecond : Nat
  ports : PerPort PortState
  /-- the reel table, by record index (R1) -/
  reels : Table Reel
  /-- the slot records that are not UNKNOWN, by slot number (R26) -/
  slots : Table Slot
  /-- the taken rest-rack positions with the reels they name (R28) -/
  rack : Table Nat
  /-- the move order table, by rack position (R31) -/
  orders : Table MoveOrder
  pendingRenumber : Option Renumber
  renumberWork : Option RenumberWork
  units : PerTransport RegUnit
  lines : PerTransport Lines
  passes : PerTransport (Option Pass)
  heldEdits : Option HeldEdits
  /-- the alert board, oldest first (R151) -/
  alerts : List Alert
  lostMark : Bool
  /-- the check value of the retained store, held as its difference from the sum of the contents: 0 when they match
  (`State.checkValue`, R174, R175) -/
  checkSkew : BitVec 16
  settings : Settings
  loadOutcome : LoadOutcome
  /-- the items clamped at load: bits 0 to 7 the zones, bits 8 to 14 the items of codes 1 to 7 (R180) -/
  clampedAtLoad : Nat
  /-- the last write-back outcome since start-up: whether the memory took the block (R177) -/
  lastWriteBack : Option Bool
  /-- the block that the settings memory holds, with its check; none when a cut write-back has left a block of which
  only this is known, that its check does not match it (R176, R177) -/
  settingsMemory : Option SettingsBlock
  writeBack : Option WriteBack
  heldWrite : Option SettingRequest
  /-- the commands that wait, the first to be taken at the head -/
  pending : List Instr
deriving DecidableEq, Repr

/-- The default of every item of the settings block (10 section 10.2). -/
def defaultSettings : Settings where
  zones := [(0, { first := 0, last := 1023, preset := 60, limit := 0 })]
  cycle0 := 20000
  cycle1 := 20000
  shrinkLimit := 150
  gentle := 3
  threading := 300
  firstWait := 90
  reissue := 3

/-- All port flags clear (R166). -/
def PortFlags.clear : PortFlags := { discarded := false, ignored := false, lost := false }

/-- A port as start-up opens it: IDLE, no reply, flags clear, one START notice (R179). -/
def PortState.opened (code : StartCode) : PortState where
  status := .idle
  notices := [.start code]
  marker := none
  flags := .clear
  dataOut := []

/-- The same value for every port. -/
def PerPort.const {α : Type} (a : α) : PerPort α := ⟨a, a, a, a, a, a⟩

/-- The same value for both transports. -/
def PerTransport.const {α : Type} (a : α) : PerTransport α := ⟨a, a⟩

/-- A registration unit after start-up with its break latch as found (R69). -/
def RegUnit.cleared (breakLatch : Bool) : RegUnit where
  state := .idle
  run := none
  breakLatch := breakLatch
  abortHold := false
  setCode := 7
  encoder := 0

/-- The lines of a transport with CAPTURE negated and TAG idle (R46, R82). -/
def Lines.quiet (dir : Sense) (broken : Bool) : Lines where
  dirLine := dir
  breakLine := broken
  capturePulses := 0
  tags := []

/-- The part right after its reset: started by power-on with a failed retained-store check and no valid settings
block, BREAK negated on both transports. It is the start whose every value the spec gives (R1, R26, R28, R44, R69,
R91, R92, R130, R150, R160, R175, R176, R179); the timestamp and the DIR level are named in the assumption log.
DESIGN CHOICE, log 1. -/
def State.reset : State where
  phase := .running
  timestamp := 0
  suiteMinute := 0
  suiteSecond := 0
  ports := .const (.opened (.degraded true true))
  reels := []
  slots := []
  rack := []
  orders := []
  pendingRenumber := none
  renumberWork := none
  units := .const (.cleared false)
  lines := .const (.quiet .forward false)
  passes := .const none
  heldEdits := none
  alerts :=
    [{ code := .retainedLost, reel := none, place := none, minute := 0, count := 1 },
     { code := .settingsDefaulted, reel := none, place := none, minute := 0, count := 1 }]
  lostMark := false
  checkSkew := 0
  settings := defaultSettings
  loadOutcome := .defaulted
  clampedAtLoad := 0
  lastWriteBack := none
  settingsMemory := none
  writeBack := none
  heldWrite := none
  pending := []

end Sys2Proof.Machine
end

