-- ==== Sys2Proof/Machine/Operands.lean ====
section
/-! DEFINITION. The operand forms of requests: enumerated arguments, read from the number of their byte, and
the codes with which the part sends enumerated values (R180: the position in the table or list where the
manual gives the value, counted from 0). -/

namespace Sys2Proof.Machine

/-- An argument that is yes or no, coded no 0 and yes 1: `tail` and `hold` (R180), and `home` by the same coding, which
no rule gives it: DESIGN CHOICE, log 31. -/
def yesNo : Nat → Option Bool
  | 0 => some false
  | 1 => some true
  | _ => none

/-- A gauge argument (R180, R182). -/
def gaugeOf : Nat → Option Gauge
  | 0 => some .g35x4
  | 1 => some .g35x3
  | 2 => some .g16x1
  | _ => none

/-- A transport argument (R180). -/
def transportOf : Nat → Option Transport
  | 0 => some .t0
  | 1 => some .t1
  | _ => none

/-- A pass kind argument (R180). -/
def passKindOf : Nat → Option PassKind
  | 0 => some .inspect
  | 1 => some .graded
  | _ => none

/-- Every kind of defect, in the order of R95. -/
def DefectKind.all : List DefectKind :=
  [.missingPerf, .edgeDamage, .pitchBreak, .missedCapture, .tear, .scratch, .dirt, .emulsionLoss,
   .warp, .splice]

/-- A defect kind argument (R95, R180). -/
def defectKindOf (v : Nat) : Option DefectKind := DefectKind.all[v]?

/-- An optional severity argument: 255 when it is absent, `none` when the byte names no value (R180). -/
def severityOf : Nat → Option (Option Severity)
  | 0 => some (some .blocking)
  | 1 => some (some .cosmetic)
  | 255 => some none
  | _ => none

/-- An optional note code with its presence byte; `none` when the presence byte is neither 0 nor 1. DEDUCED, log
13. -/
def noteOf (given note : Nat) : Option (Option Nat) :=
  match given with
  | 0 => some none
  | 1 => some (some note)
  | _ => none

/-- An optional frame number, absent as 65535 (R180). -/
def frameArg (v : Nat) : Option Nat := if v = 65535 then none else some v

/-- The place of LOCATE: a slot, or a rack position (R180). -/
inductive Place
  | slot (n : Nat)
  | rack (n : Nat)
deriving DecidableEq, Repr

/-- The place argument of LOCATE (R180). -/
def placeOf (kind n : Nat) : Option Place :=
  match kind with
  | 0 => some (.slot n)
  | 1 => some (.rack n)
  | _ => none

/-- The content argument of SLOT_REPORT (R41, R180). -/
def contentOf (content reel : Nat) : Option (Option Nat) :=
  match content with
  | 0 => some none
  | 1 => some (some reel)
  | _ => none

/-- The area argument of READ_SLOTS: true for RACK (R43, R180). -/
def areaOf (area : Nat) : Option Bool := yesNo area

/-- Every alert code, in the order of R152. -/
def AlertCode.all : List AlertCode :=
  [.filmBreak, .registrationFailed, .overspeed, .shrinkage, .repairExhausted, .frameCountChanged,
   .zoneFull, .retainedLost, .settingsDefaulted, .exposureLimit, .moveFault, .defectPoolFull,
   .scenePoolFull, .boardFull]

/-- An alert code argument (R157, R180). -/
def alertCodeOf (v : Nat) : Option AlertCode := AlertCode.all[v]?

/-- A reel argument that may name no reel: 0 is none (R157). -/
def reelArg (v : Nat) : Option Nat := if v = 0 then none else some v

/-! ### Codes of the values that the part sends -/

/-- R180: 0 to 5 for P0 to P5. -/
def portCode : Port → Nat
  | .p0 => 0 | .p1 => 1 | .p2 => 2 | .p3 => 3 | .p4 => 4 | .p5 => 5

/-- R180: 0 for T0 and 1 for T1. -/
def transportCode : Transport → Nat
  | .t0 => 0 | .t1 => 1

/-- The order of section 9.8 (R180). -/
def ResultCode.code : ResultCode → Nat
  | .ok => 0 | .accepted => 1 | .queued => 2 | .clamped => 3
  | .badRequest => 4 | .notPermitted => 5
  | .noSuchReel => 6 | .noSuchEntry => 7 | .noSuchScene => 8
  | .wrongState => 9 | .notHolder => 10 | .holdsOther => 11 | .queueFull => 12 | .waiters => 13
  | .lapsed => 14 | .overExposed => 15
  | .stagingFull => 16 | .zoneFull => 17 | .tableFull => 18 | .poolFull => 19 | .inUse => 20
  | .duplicate => 21 | .staleOrder => 22
  | .passActive => 23 | .breakActive => 24 | .blockingDefects => 25 | .countUnconfirmed => 26
  | .gradeLocked => 27 | .renumbering => 28 | .editOpen => 29 | .openDefects => 30 | .outOfRange => 31
  | .stillActive => 32

/-- The codes of the success group (R173). -/
def ResultCode.success : ResultCode → Bool
  | .ok => true | .accepted => true | .queued => true | .clamped => true
  | _ => false

/-- The order of R152 (R180). -/
def AlertCode.code (c : AlertCode) : Nat := AlertCode.all.idxOf c

/-- The codes whose alerts follow a condition (R152). -/
def AlertCode.isCondition : AlertCode → Bool
  | .exposureLimit => true | .moveFault => true | .defectPoolFull => true | .scenePoolFull => true
  | .boardFull => true
  | _ => false

/-- The order of the state table of section 1.3 (R180). -/
def Custody.code : Custody → Nat
  | .shelved => 0 | .outbound => 1 | .resting _ => 2 | .ready => 3 | .granted _ _ => 4 | .held _ => 5
  | .inbound => 6 | .moveFault _ => 7

def Direction.code : Direction → Nat
  | .outbound => 0 | .inbound => 1

/-- R182: G35-4 0, G35-3 1, G16-1 2. -/
def Gauge.code : Gauge → Nat
  | .g35x4 => 0 | .g35x3 => 1 | .g16x1 => 2

/-- The order of R26 (R180). -/
def Slot.code : Slot → Nat
  | .free => 0 | .occupied _ => 1 | .away _ => 2 | .reserved _ => 3 | .blocked => 4 | .unknown => 5

def OrderState.code : OrderState → Nat
  | .waiting _ => 0 | .faulted => 1

def DefectKind.code (k : DefectKind) : Nat := DefectKind.all.idxOf k

/-- The order of R94 (R180). -/
def DefectState.code : DefectState → Nat
  | .opened => 0 | .claimed _ => 1 | .repaired => 2 | .verified => 3 | .deferred => 4 | .removed => 5

/-- R182: RU0 0, RU1 1, ports 2 to 5 for P0 to P3. -/
def Origin.code : Origin → Nat
  | .unit t => transportCode t
  | .station p => portCode p + 2

def RegState.code : RegState → Nat
  | .idle => 0 | .armed => 1 | .locked => 2 | .reacquire => 3

def PassKind.code : PassKind → Nat
  | .inspect => 0 | .graded => 1

def PassState.code : PassState → Nat
  | .armed => 0 | .running => 1 | .ended => 2 | .closing => 3

def EndReason.code : EndReason → Nat
  | .complete => 0 | .stopped => 1 | .aborted _ => 2

def AbortCause.code : AbortCause → Nat
  | .filmBreak => 0 | .registrationFailed => 1 | .reversed => 2

/-- The cause of an end, present with ABORTED (R70). -/
def EndReason.cause : EndReason → Option AbortCause
  | .aborted c => some c
  | _ => none

/-- R181: 0, 1 for T0, T1; 2 to 7 for P0 to P5. -/
def AlertPlace.code : AlertPlace → Nat
  | .transport t => transportCode t
  | .port p => portCode p + 2

def DropReason.code : DropReason → Nat
  | .exposure => 0 | .shelved => 1 | .grantedOther => 2

def AbandonCause.code : AbandonCause → Nat
  | .otherReel => 0 | .removeFrames => 1 | .retire => 2

def LoadOutcome.code : LoadOutcome → Nat
  | .valid => 0 | .defaulted => 1

/-- The kinds of notice in the order of the table of section 9.6; NOTICES_LOST is 9 (R181). -/
def Notice.kindCode : Notice → Nat
  | .start _ => 0
  | .alertRaised _ _ _ _ => 1
  | .alertCleared _ _ _ _ => 2
  | .granted _ _ => 3
  | .lapsed _ => 4
  | .queueDropped _ _ => 5
  | .renumberDone _ _ => 6
  | .editAbandoned _ _ _ => 7
  | .gradeUnlocked _ => 8
  | .moveOrder _ _ => 10
  | .passEnded _ _ => 11
  | .passClosed _ _ _ _ _ => 11

/-- The port with the same number as a transport (00 section 2.1). -/
def pairedPort : Transport → Port
  | .t0 => .p0 | .t1 => .p1

/-- The transport paired with a port (R171). -/
def pairedTransport : Port → Option Transport
  | .p0 => some .t0 | .p1 => some .t1
  | _ => none

/-- The six ports, in order. -/
def allPorts : List Port := [.p0, .p1, .p2, .p3, .p4, .p5]

/-- The holder port of a custody state (R3). -/
def Custody.holder : Custody → Option Port
  | .granted p _ => some p
  | .held p => some p
  | _ => none

/-- The claimant port of a defect state (R94). -/
def DefectState.claimant : DefectState → Option Port
  | .claimed p => some p
  | _ => none

/-- The reel that a slot names (R26). -/
def Slot.occupant : Slot → Option Nat
  | .occupied r => some r
  | .away r => some r
  | .reserved r => some r
  | _ => none

end Sys2Proof.Machine
end

