-- ==== Sys2Proof/Machine/Tables.lean ====
section
/-! DEFINITION. Sparse tables of numbered records: reading, writing and emptying a place. -/

namespace Sys2Proof.Machine

/-- The record in place `k`, none when the place is empty. -/
def tableGet {α : Type} : Table α → Nat → Option α
  | [], _ => none
  | (j, a) :: m, k => if j = k then some a else tableGet m k

/-- Place `k` filled with `a`, keeping the table in rising order. -/
def tablePut {α : Type} : Table α → Nat → α → Table α
  | [], k, a => [(k, a)]
  | (j, b) :: m, k, a =>
    if k < j then (k, a) :: (j, b) :: m
    else if j = k then (k, a) :: m
    else (j, b) :: tablePut m k a

/-- Place `k` emptied. -/
def tableErase {α : Type} (m : Table α) (k : Nat) : Table α := m.filter (fun e => e.1 ≠ k)

/-- The record in place `k`, if any, changed by `f`. -/
def tableModify {α : Type} (m : Table α) (k : Nat) (f : α → α) : Table α :=
  m.map (fun e => if e.1 = k then (e.1, f e.2) else e)

/-- The least number below `limit` that is not in `used`. -/
def lowestFree (limit : Nat) (used : List Nat) : Option Nat :=
  (List.range limit).find? (fun k => !used.contains k)

/-- Places are listed in strictly rising order. -/
abbrev tableOrdered {α : Type} (m : Table α) : Prop := m.Pairwise (fun a b => a.1 < b.1)

end Sys2Proof.Machine
end

