-- ==== Sys2Proof/Machine/Ops.lean ====
section
/-! DEFINITION. The named operations over the records of the part: reading and writing one port, transport,
reel, slot and pool, and the answer that an owner gives to a request. -/

namespace Sys2Proof.Machine

/-! ### Ports and transports -/

/-- The value of port `p`. -/
def PerPort.get {α : Type} (b : PerPort α) : Port → α
  | .p0 => b.p0 | .p1 => b.p1 | .p2 => b.p2 | .p3 => b.p3 | .p4 => b.p4 | .p5 => b.p5

/-- Port `p` given the value `a`. -/
def PerPort.set {α : Type} (b : PerPort α) (p : Port) (a : α) : PerPort α :=
  match p with
  | .p0 => { b with p0 := a } | .p1 => { b with p1 := a } | .p2 => { b with p2 := a }
  | .p3 => { b with p3 := a } | .p4 => { b with p4 := a } | .p5 => { b with p5 := a }

/-- The value of transport `t`. -/
def PerTransport.get {α : Type} (b : PerTransport α) : Transport → α
  | .t0 => b.t0 | .t1 => b.t1

/-- Transport `t` given the value `a`. -/
def PerTransport.set {α : Type} (b : PerTransport α) (t : Transport) (a : α) : PerTransport α :=
  match t with
  | .t0 => { b with t0 := a } | .t1 => { b with t1 := a }

def State.port (s : State) (p : Port) : PortState := s.ports.get p

def State.setPort (s : State) (p : Port) (q : PortState) : State := { s with ports := s.ports.set p q }

def State.unit (s : State) (t : Transport) : RegUnit := s.units.get t

def State.setUnit (s : State) (t : Transport) (u : RegUnit) : State := { s with units := s.units.set t u }

def State.pass (s : State) (t : Transport) : Option Pass := s.passes.get t

def State.setPass (s : State) (t : Transport) (p : Option Pass) : State :=
  { s with passes := s.passes.set t p }

def State.line (s : State) (t : Transport) : Lines := s.lines.get t

def State.setLine (s : State) (t : Transport) (l : Lines) : State := { s with lines := s.lines.set t l }

/-! ### Reels -/

/-- The record in place `i` of the reel table. -/
def State.reelAt (s : State) (i : Nat) : Option Reel := tableGet s.reels i

/-- Place `i` of the reel table filled with `r`. -/
def State.putReel (s : State) (i : Nat) (r : Reel) : State := { s with reels := tablePut s.reels i r }

/-- The record in place `i`, if any, changed by `f`. -/
def State.modReel (s : State) (i : Nat) (f : Reel → Reel) : State :=
  { s with reels := tableModify s.reels i f }

/-- The index and record that carry a reel ID; none for ID 0, which means no reel (R1). -/
def State.findReel (s : State) (id : Nat) : Option (Nat × Reel) :=
  if id = 0 then none else s.reels.find? (fun e => e.2.id = id)

/-- The reel that a port holds, GRANTED or HELD (R3). -/
def State.heldBy (s : State) (p : Port) : Option (Nat × Reel) :=
  s.reels.find? (fun e => e.2.custody.holder = some p)

/-! ### Slots -/

/-- The record of slot `n`; a slot that is not listed is UNKNOWN (R26). -/
def State.slotAt (s : State) (n : Nat) : Slot := (tableGet s.slots n).getD .unknown

/-- Slot `n` given the record `v`. -/
def State.setSlot (s : State) (n : Nat) (v : Slot) : State :=
  { s with slots := if v = .unknown then tableErase s.slots n else tablePut s.slots n v }

/-! ### Pools -/

/-- Every entry of the defect pool (R92). -/
def State.allDefects (s : State) : List Defect := s.reels.flatMap (fun e => e.2.defects)

/-- Every record of the scene pool (R130). -/
def State.allScenes (s : State) : List Scene := s.reels.flatMap (fun e => e.2.scenes)

/-- The count of free entry places (R92). -/
def State.defectFree (s : State) : Nat := Config.defectPlaces - s.allDefects.length

/-- The count of free scene places (R130). -/
def State.sceneFree (s : State) : Nat := Config.scenePlaces - s.allScenes.length

/-- The condition of DEFECT_POOL_FULL (R100). -/
def State.defectPoolFull (s : State) : Bool :=
  s.defectFree < Config.defectMargin ||
    s.reels.any (fun e => Config.reelDefects ≤ e.2.defects.length)

/-- The condition of SCENE_POOL_FULL (R132). -/
def State.scenePoolFull (s : State) : Bool := s.sceneFree < Config.sceneMargin

/-! ### The retained store -/

/-- The sum of 16-bit words modulo 2^16 (R174, R176). -/
def sumWords (ws : List (BitVec 16)) : BitVec 16 := ws.foldl (· + ·) 0

/-- The custody state with no time left in it: the timers are working fields (01 section 1.2). -/
def Custody.stored : Custody → Custody
  | .resting _ => .resting 0
  | .granted p _ => .granted p 0
  | c => c

/-- A reel record less its working fields (R174; 01 section 1.2). -/
def Reel.stored (r : Reel) : Reel :=
  { r with custody := r.custody.stored, waiters := [], lapsed := none, exposureSeconds := 0 }

/-- A move order less its wait left (R174). -/
def MoveOrder.stored (o : MoveOrder) : MoveOrder :=
  { o with state := match o.state with
    | .waiting _ => .waiting 0
    | .faulted => .faulted }

/-- The contents of the retained store (R174). -/
def State.retained (s : State) : Retained where
  reels := s.reels.map (fun e => (e.1, e.2.stored))
  slots := s.slots
  rack := s.rack
  orders := s.orders.map (fun e => (e.1, e.2.stored))
  pendingRenumber := s.pendingRenumber
  lostMark := s.lostMark

/-- The sum of the retained store's contents (R174). -/
def State.storeSum (s : State) : BitVec 16 := sumWords (Config.storeWords s.retained)

/-- The check value that the store holds (R174). The state holds its difference from the sum, so every change that a
rule makes to a retained record leaves it matching, as R174 says it does. -/
def State.checkValue (s : State) : BitVec 16 := s.storeSum + s.checkSkew

/-! ### Passes -/

/-- The pass record, in any state, that names a reel (R71). -/
def State.passOn (s : State) (reel : Nat) : Option Pass :=
  match s.passes.t0, s.passes.t1 with
  | some p, some q => if p.reel = reel then some p else if q.reel = reel then some q else none
  | some p, none => if p.reel = reel then some p else none
  | none, some q => if q.reel = reel then some q else none
  | none, none => none

/-- Some pass record that names the reel satisfies `test` (R71). -/
def State.anyPassOn (s : State) (reel : Nat) (test : Pass → Bool) : Bool :=
  [s.passes.t0, s.passes.t1].any (fun o => match o with
    | some p => p.reel = reel && test p
    | none => false)

/-- A pass record is open on either transport (R71). -/
def State.passOpen (s : State) : Bool := s.passes.t0.isSome || s.passes.t1.isSome

/-! ### Answers -/

/-- What the owner of a request gives back: the result code, the reply body and the state after the request
(R163). -/
structure Answer where
  code : ResultCode
  body : Bytes
  state : State

/-- A refusal: no state changes and the body is empty (R173). -/
def refuse (code : ResultCode) (s : State) : Answer := ⟨code, [], s⟩

/-- The state after a command that the part always takes. -/
def done (s : State) : Host.Outcome State Fault Refusal := .next s

/-- A request that names a reel: NO_SUCH_REEL when no record carries the ID (R1, R4). -/
def withReel (id : Nat) (s : State) (f : Nat → Reel → Answer) : Answer :=
  match s.findReel id with
  | none => refuse .noSuchReel s
  | some (i, r) => f i r

/-- A request that a renumbering of its reel refuses: the checks of R4 in order. -/
def withFreeReel (id : Nat) (s : State) (f : Nat → Reel → Answer) : Answer :=
  withReel id s (fun i r => if r.renumbering then refuse .renumbering s else f i r)

end Sys2Proof.Machine
end

