-- ==== Sys2Proof/Machine/Zones.lean ====
section
/-! DEFINITION. The zone table of the settings image: which zone a slot lies in, and the preset and limit of
a reel's zone (R2, R24). -/

namespace Sys2Proof.Machine

/-- A present zone covers the slots from its first to its last (R24). -/
def Zone.covers (z : Zone) (slot : Nat) : Bool := z.first ≤ slot && slot ≤ z.last

/-- The zone a slot lies in: the lowest-numbered one that covers it (R24). -/
def zoneOf (g : Settings) (slot : Nat) : Option Nat :=
  (g.zones.find? (fun e => Zone.covers e.2 slot)).map (·.1)

/-- Zone `k` when it is present and covers a slot (R2). -/
def coveringZone (g : Settings) (k : Nat) : Option Zone :=
  (tableGet g.zones k).filter (fun z => z.first ≤ z.last)

/-- The acclimatisation preset of zone `k` in minutes; 0 when the zone covers no slot (R2). -/
def zonePreset (g : Settings) (k : Nat) : Nat := ((coveringZone g k).map (·.preset)).getD 0

/-- The exposure limit of zone `k` in minutes; 0, no limit, when the zone covers no slot (R2). -/
def zoneLimit (g : Settings) (k : Nat) : Nat := ((coveringZone g k).map (·.limit)).getD 0

/-- What a slot becomes where it would become FREE: BLOCKED when it lies in no zone (R27). -/
def emptiedSlot (g : Settings) (slot : Nat) : Slot :=
  if (zoneOf g slot).isSome then .free else .blocked

/-- The slots numbered below `limit` checked against the zone table: a FREE or UNKNOWN one that lies in no zone becomes
BLOCKED (R25). -/
def checkSlotsBelow (limit : Nat) (s : State) : State :=
  (List.range limit).foldl
    (fun s n =>
      if (zoneOf s.settings n).isSome then s
      else match s.slotAt n with
        | .free => s.setSlot n .blocked
        | .unknown => s.setSlot n .blocked
        | _ => s)
    s

/-- The check of every slot against the zone table (R25). -/
def checkSlots (s : State) : State := checkSlotsBelow Config.slotPlaces s

end Sys2Proof.Machine
end

