-- ==== Sys2Proof/Machine/Flags.lean ====
section
/-! DEFINITION. Flag bytes, and the output lines that the part drives from its state. -/

namespace Sys2Proof.Machine

/-- A flag byte, bit 0 first (R180). -/
def flagBits : List Bool → Nat
  | [] => 0
  | b :: bs => b.toNat + 2 * flagBits bs

/-- Bit `k` of a flag byte. -/
def flagBit (v k : Nat) : Bool := v / 2 ^ k % 2 = 1

/-- The port flags byte: bit 0 REPLY_DISCARDED, bit 1 FRAME_IGNORED, bit 2 NOTICES_LOST (R180). -/
def PortFlags.byte (f : PortFlags) : Nat := flagBits [f.discarded, f.ignored, f.lost]

/-- The flags that a CLEAR_FLAGS mask names are cleared (R166). -/
def PortFlags.cleared (f : PortFlags) (mask : Nat) : PortFlags where
  discarded := f.discarded && !flagBit mask 0
  ignored := f.ignored && !flagBit mask 1
  lost := f.lost && !flagBit mask 2

/-- The notice count of a port: whole notices, the overflow marker counted as one (R165). -/
def PortState.noticeCount (q : PortState) : Nat :=
  q.notices.length + (if q.marker.isSome then 1 else 0)

/-- Byte `j` that data out sent in the last select frame of a port: the idle level, 255, in the first three bytes, in
every byte of a frame that carries no reply and no header, and beyond the end of those (R161, R163, R180). -/
def PortState.dataOutByte (q : PortState) (j : Nat) : Byte := if j < 3 then 255 else q.dataOut.getD (j - 3) 255

/-- RDY of a port: asserted while it is IDLE or REPLY (R161). -/
def State.rdy (s : State) (p : Port) : Bool :=
  match (s.port p).status with
  | .idle => true
  | .reply _ => true
  | .working => false
  | .closed => false

/-- ATTN of a port: asserted while its queue holds a notice, negated while it is closed (R161, R172). -/
def State.attn (s : State) (p : Port) : Bool :=
  match (s.port p).status with
  | .closed => false
  | _ => 0 < (s.port p).noticeCount

/-- The ALERT line: asserted while the board holds an alert (R158). -/
def State.alertLine (s : State) : Bool := !s.alerts.isEmpty

/-- The cap of a transport: the gentle code while the reel held by the paired port is SHRUNK, else 7 (R64). -/
def State.speedCap (s : State) (t : Transport) : Nat :=
  match s.heldBy (pairedPort t) with
  | some (_, r) => if r.shrunk then s.settings.gentle else 7
  | none => 7

/-- The output speed code of a transport: the lower of the set code and the cap (R64). Every event that R64
lists changes one of the two, so SPD follows them at once. -/
def State.speedCode (s : State) (t : Transport) : Nat := min (s.unit t).setCode (s.speedCap t)

/-- STOP of a registration unit: its break latch or its abort hold (R65). -/
def RegUnit.stop (u : RegUnit) : Bool := u.breakLatch || u.abortHold

/-- The STOP line; asserted while RESET is asserted or the part is starting (R65, R178), and by the model's choice without
supply power, log 32. DESIGN CHOICE, logs 20 and 32. -/
def State.stopLine (s : State) (t : Transport) : Bool :=
  match s.phase with
  | .running => (s.unit t).stop
  | _ => true

/-- The SPD lines; 0 while RESET is asserted or the part is starting (R46, R178), and by the model's choice without
supply power. DESIGN CHOICE, log 32. -/
def State.spdLine (s : State) (t : Transport) : Nat :=
  match s.phase with
  | .running => s.speedCode t
  | _ => 0

end Sys2Proof.Machine
end

