-- ==== Sys2Proof/Machine/Ports.lean ====
section
/-! DEFINITION. The station ports: placing a notice, building a reply, and taking a request frame through its
port to its owner (chapter 9). -/

namespace Sys2Proof.Machine

/-! ### The notice queue -/

/-- The queue entries that a notice takes (R167, section 9.6). -/
def Notice.entries : Notice → Nat
  | .moveOrder _ _ => 2
  | .passEnded _ _ => 2
  | .passClosed _ _ _ _ _ => 2
  | _ => 1

/-- The entries that ordinary notices take together (R167). -/
def entriesTaken (ns : List Notice) : Nat := (ns.map Notice.entries).sum

/-- The queue with its overflow marker placed, or its drop count raised, and NOTICES_LOST set (R168). -/
def PortState.dropNotice (q : PortState) (n : Notice) : PortState :=
  { q with
    marker := match q.marker with
      | some m => some { m with drops := satSucc 255 m.drops }
      | none => some { drops := 1, kind := n.kindCode }
    flags := { q.flags with lost := true } }

/-- A notice placed in the queue of an open port, or dropped for want of room or behind the marker; a closed
port takes none (R167, R168, R172). -/
def PortState.placeNotice (q : PortState) (n : Notice) : PortState :=
  match q.status with
  | .closed => q
  | _ =>
    if q.marker = none ∧ entriesTaken q.notices + n.entries ≤ Config.noticeEntries then
      { q with notices := q.notices ++ [n] }
    else q.dropNotice n

/-- A notice placed in the queue of one port. -/
def notify (p : Port) (n : Notice) (s : State) : State := s.setPort p ((s.port p).placeNotice n)

/-- A notice placed in the queue of each of the six ports (R158, R167). -/
def notifyAll (n : Notice) (s : State) : State := allPorts.foldl (fun s p => notify p n s) s

/-! ### Replies -/

/-- The reply as it is built when it is placed: its header shows the queue, the board and the flags as they
then stand (R165). -/
def buildReply (p : Port) (code : ResultCode) (body : Bytes) (s : State) : Reply where
  code := code
  notices := (s.port p).noticeCount
  alerts := s.alerts.length
  lead := s.alerts.head?.map (·.code)
  flags := (s.port p).flags
  body := body

/-- A reply placed in the reply slot of a port, which becomes REPLY (R163, R165). -/
def placeReply (p : Port) (code : ResultCode) (body : Bytes) (s : State) : State :=
  s.setPort p { s.port p with status := .reply (buildReply p code body s) }

/-- The header bytes of a reply (R180). -/
def Reply.header (r : Reply) : Bytes :=
  u8 r.code.code ++ u16 r.body.length ++ u8 r.notices ++ u8 r.alerts ++
    u8Absent (r.lead.map AlertCode.code) ++ u8 r.flags.byte ++ u8 0

/-- The bytes of a whole reply: header, then body (R163). -/
def Reply.bytes (r : Reply) : Bytes := r.header ++ r.body

/-- The header sent to a fetch that finds no reply (R163). -/
def noReplyHeader (p : Port) (s : State) : Bytes := (buildReply p .badRequest [] s).header

/-- The first `n` bytes of a transmission, with bytes of 255 beyond its end (R180). -/
def clockOut (bytes : Bytes) (n : Nat) : Bytes :=
  bytes.take n ++ List.replicate (n - bytes.length) 255

/-! ### Roles -/

/-- The requests that a port's role permits (R171). -/
def permitted : ReqKind → Port → Bool
  | .enrol, _ | .readReel, _ | .listReels, _ => true
  | .retire, p => p = .p4 || p = .p5
  | .recallReel, p | .returnReel, p => p ≠ .p5
  | .take, p | .mounted, p | .release, p | .withdraw, p => p ≠ .p4 && p ≠ .p5
  | .moveDone, p | .moveFailed, p | .locate, p => p = .p5
  | .slotReport, p | .blockSlot, p | .unblockSlot, p => p = .p5
  | .readSlots, _ => true
  | .setSpeed, p | .clearBreak, p => p = .p0 || p = .p1
  | .startPass, p | .endPass, p | .closePass, p => p = .p0 || p = .p1
  | .readPass, _ => true
  | .reportDefect, p => p ≠ .p4 && p ≠ .p5
  | .claim, p | .unclaim, p | .reportRepair, p => p = .p2 || p = .p3
  | .deferEntry, p | .purgeVerified, p => p = .p2 || p = .p3 || p = .p4
  | .readDefects, _ => true
  | .markSplice, p | .removeFrames, p => p = .p2 || p = .p3
  | .setScene, p | .deleteScene, p | .setTrim, p | .abandonEdit, p | .lockGrade, p | .unlockGrade, p =>
      p = .p4
  | .readScenes, _ | .previewLights, _ => true
  | .clearAlert, _ | .readAlerts, _ => true
  | .readSettings, _ => true
  | .writeSetting, p => p = .p4 || p = .p5
  | .fetchNotice, _ | .clearFlags, _ | .resetPort, _ => true

/-! ### Taking a request frame -/

/-- What a request frame does to its port before it is decided: a held reply is discarded with
REPLY_DISCARDED set, data out stays at its idle level, and the port is WORKING (R161, R162, R164). -/
def takeFrame (p : Port) (s : State) : State :=
  match (s.port p).status with
  | .reply _ =>
    s.setPort p { s.port p with
      status := .working, dataOut := [], flags := { (s.port p).flags with discarded := true } }
  | _ => s.setPort p { s.port p with status := .working, dataOut := [] }

/-- A frame that reaches a WORKING port is ignored and sets FRAME_IGNORED (R164). -/
def ignoreFrame (p : Port) (s : State) : State :=
  s.setPort p { s.port p with dataOut := [], flags := { (s.port p).flags with ignored := true } }

/-- A request frame reaching a port: ignored without a flag while the port is closed, ignored with
FRAME_IGNORED while it is WORKING, and otherwise taken and handed to `decide` (R162, R164, R172). -/
def onFrame (p : Port) (decide : State → State) (s : State) : State :=
  match (s.port p).status with
  | .closed => s
  | .working => ignoreFrame p s
  | _ => decide (takeFrame p s)

/-- The role check, then the owner's answer placed as the reply (R163). -/
def serve (p : Port) (k : ReqKind) (owner : State → Answer) (s : State) : State :=
  if permitted k p then placeReply p (owner s).code (owner s).body (owner s).state
  else placeReply p .notPermitted [] s

/-- A request of kind `k` from port `p`, decided by its owner. -/
def request (p : Port) (k : ReqKind) (owner : State → Answer) (s : State) : State :=
  onFrame p (serve p k owner) s

end Sys2Proof.Machine
end

