-- ==== Sys2Proof/Machine/Board.lean ====
section
/-! DEFINITION. The alert board: raising, merging and removing alerts, BOARD_FULL and the sweep that follows
its removal (chapter 8). -/

namespace Sys2Proof.Machine

/-- The alert is the one of this code and reel (R151). -/
def Alert.isFor (a : Alert) (code : AlertCode) (reel : Option Nat) : Bool :=
  a.code = code && a.reel = reel

/-- The alert of a code and reel, if it is on the board. -/
def State.alertFor (s : State) (code : AlertCode) (reel : Option Nat) : Option Alert :=
  s.alerts.find? (fun a => a.isFor code reel)

/-- BOARD_FULL stands on the board. -/
def State.boardFull (s : State) : Bool := s.alerts.any (fun a => a.code = .boardFull)

/-- The number of alerts on the board other than BOARD_FULL (R154). -/
def State.otherCount (s : State) : Nat := (s.alerts.filter (fun a => a.code ≠ .boardFull)).length

/-- An alert with a raise merged into it: its raise count rises, and its transport or port becomes absent when
the raise names a different one (R153). -/
def Alert.merged (a : Alert) (place : Option AlertPlace) : Alert :=
  { a with
    count := satSucc 255 a.count
    place := if place.isSome ∧ place ≠ a.place then none else a.place }

/-- A new alert appended at the end of the list, with ALERT_RAISED to all six ports (R154, R158). -/
def appendAlert (code : AlertCode) (reel : Option Nat) (place : Option AlertPlace) (s : State) : State :=
  notifyAll (.alertRaised code reel place (s.alerts.length + 1))
    { s with alerts := s.alerts ++
        [{ code := code, reel := reel, place := place, minute := s.suiteMinute, count := 1 }] }

/-- A raise reaching the board: merged into the alert of the same code and reel, else lost under BOARD_FULL,
else appended, or lost with BOARD_FULL appended in its place (R153, R154). -/
def raiseAlert (code : AlertCode) (reel : Option Nat) (place : Option AlertPlace) (s : State) : State :=
  if (s.alertFor code reel).isSome then
    { s with alerts := s.alerts.map (fun a => if a.isFor code reel then a.merged place else a) }
  else if s.boardFull then
    { s with alerts := s.alerts.map (fun a =>
        if a.code = .boardFull then { a with count := satSucc 255 a.count } else a) }
  else if s.otherCount < Config.boardAlerts then appendAlert code reel place s
  else appendAlert .boardFull none none s

/-- A condition alert raised by its owner when its condition holds and it is absent from the board. -/
def raiseIfAbsent (code : AlertCode) (reel : Option Nat) (s : State) : State :=
  if (s.alertFor code reel).isSome then s else raiseAlert code reel none s

/-- The reel is in MOVE_FAULT (R9). -/
def Reel.inFault (r : Reel) : Bool :=
  match r.custody with
  | .moveFault _ => true
  | _ => false

/-- The sweep of R156: the owners raise, in order, each condition alert whose condition holds and which is
absent from the board. -/
def sweepConditions (s : State) : State :=
  let faults := (s.reels.filter (fun e => e.2.inFault)).map (fun e => e.2.id)
  let exposed := (s.reels.filter (fun e => e.2.overexposed)).map (fun e => e.2.id)
  let s := faults.foldl (fun s id => raiseIfAbsent .moveFault (some id) s) s
  let s := exposed.foldl (fun s id => raiseIfAbsent .exposureLimit (some id) s) s
  let s := if s.defectPoolFull then raiseIfAbsent .defectPoolFull none s else s
  if s.scenePoolFull then raiseIfAbsent .scenePoolFull none s else s

/-- The alert of a code and reel taken out of the list, with ALERT_CLEARED to all six ports (R155, R158). -/
def takeOffBoard (code : AlertCode) (reel : Option Nat) (by_ : Option Port) (s : State) : State :=
  match s.alertFor code reel with
  | none => s
  | some a =>
    notifyAll (.alertCleared code reel a.count by_)
      { s with alerts := s.alerts.filter (fun a => !a.isFor code reel) }

/-- The removal of an alert, by its owner or by CLEAR_ALERT: when it brings the other count to 19 with
BOARD_FULL on the board, BOARD_FULL goes in the same event and the sweep follows (R155, R156). The removal of
an alert that is not on the board changes nothing. -/
def removeAlert (code : AlertCode) (reel : Option Nat) (by_ : Option Port) (s : State) : State :=
  if (s.alertFor code reel).isSome then
    let s := takeOffBoard code reel by_ s
    if s.boardFull && s.otherCount ≤ Config.boardReopens then
      sweepConditions (takeOffBoard .boardFull none none s)
    else s
  else s

/-- The test of a condition alert by its owner: raised when the condition holds and it is absent, removed when the
condition has ended and it is present (R100, R132). DEDUCED, log 24. -/
def testCondition (holds : Bool) (code : AlertCode) (s : State) : State :=
  if holds then raiseIfAbsent code none s else removeAlert code none none s

/-- The test of DEFECT_POOL_FULL (R100). -/
def testDefectPool (s : State) : State := testCondition s.defectPoolFull .defectPoolFull s

/-- The test of SCENE_POOL_FULL (R132). -/
def testScenePool (s : State) : State := testCondition s.scenePoolFull .scenePoolFull s

/-- CLEAR_ALERT(code, reel): the checks and effect of R157. The raise count of the reply is sent in 1 byte, as in an
item of READ_ALERTS: DEDUCED, log 12. -/
def clearAlertOwner (p : Port) (code reel : Nat) (s : State) : Answer :=
  match alertCodeOf code with
  | none => refuse .badRequest s
  | some c =>
    match s.alertFor c (reelArg reel) with
    | none => refuse .noSuchEntry s
    | some a =>
      if c.isCondition then refuse .stillActive s
      else ⟨.ok, u8 c.code ++ u32 reel ++ u8 a.count, removeAlert c (reelArg reel) (some p) s⟩

/-- The alert code byte of a notice or item: the code with bit 7 set for a condition alert (R181). -/
def AlertCode.kindByte (c : AlertCode) : Nat := c.code + (if c.isCondition then 128 else 0)

/-- The transport or port byte of an alert (R181). -/
def alertPlaceByte (place : Option AlertPlace) : Bytes := u8Absent (place.map AlertPlace.code)

/-- The alert item of READ_ALERTS (R182). -/
def alertItem (place : Nat) (a : Alert) : Bytes :=
  u8 place ++ u8 a.code.kindByte ++ reelField a.reel ++ alertPlaceByte a.place ++ u16 a.minute ++ u8 a.count

/-- The body of READ_ALERTS: the suite minute, the alert count, every alert in order (R159, R182). -/
def alertsBody (s : State) : Bytes :=
  u16 s.suiteMinute ++ u8 s.alerts.length ++
    (s.alerts.zipIdx.flatMap (fun e => alertItem (e.2 + 1) e.1))

/-- READ_ALERTS (R159). -/
def readAlertsOwner (s : State) : Answer := ⟨.ok, alertsBody s, s⟩

/-- CLEAR_ALERT (R157). -/
def execClearAlert (p : Port) (code reel : Nat) (s : State) : Host.Outcome State Fault Refusal :=
  done (request p .clearAlert (clearAlertOwner p code reel) s)

/-- READ_ALERTS (R159). -/
def execReadAlerts (p : Port) (s : State) : Host.Outcome State Fault Refusal :=
  done (request p .readAlerts readAlertsOwner s)

/-- A full minute has passed: the suite minute advances by one and wraps from 65535 to 0; a stopped part counts
none (R151). DESIGN CHOICE, log 22. -/
def advanceMinute (s : State) : State :=
  match s.phase with
  | .running =>
    { s with suiteMinute := if s.suiteMinute < 65535 then s.suiteMinute + 1 else 0, suiteSecond := 0 }
  | _ => s

/-- SUITE_MINUTE (R151). -/
def execSuiteMinute (s : State) : Host.Outcome State Fault Refusal := done (advanceMinute s)

end Sys2Proof.Machine
end

