-- ==== Sys2Proof/Machine/Register.lean ====
section
/-! DEFINITION. The defect register: reel lists, the raising of a detection, the reel counts, and the
questions that other blocks ask (chapter 5). -/

namespace Sys2Proof.Machine

/-- The last frame an entry covers (R94). -/
def Defect.last (d : Defect) : Nat := d.first + d.span - 1

/-- The entry covers frame `f` (R94). -/
def Defect.covers (d : Defect) (f : Nat) : Bool := d.first ≤ f && f < d.first + d.span

/-- The entry is in OPEN, CLAIMED or REPAIRED state, the states that count (R102). -/
def Defect.counted (d : Defect) : Bool :=
  match d.state with
  | .opened => true
  | .claimed _ => true
  | .repaired => true
  | _ => false

/-- The default severity of a kind (R95). -/
def DefectKind.severity : DefectKind → Severity
  | .missingPerf => .blocking
  | .edgeDamage => .blocking
  | .pitchBreak => .blocking
  | .missedCapture => .cosmetic
  | .tear => .blocking
  | .scratch => .cosmetic
  | .dirt => .cosmetic
  | .emulsionLoss => .blocking
  | .warp => .blocking
  | .splice => .cosmetic

/-- The kinds whose detections may grow an open entry that ends just before (R95). -/
def DefectKind.coalesces : DefectKind → Bool
  | .edgeDamage => true
  | .missedCapture => true
  | .scratch => true
  | .dirt => true
  | _ => false

/-- The number of counted entries of a list (R102). -/
def countOpen (ds : List Defect) : Nat := (ds.filter Defect.counted).length

/-- The number of counted BLOCKING entries of a list (R102). -/
def countBlocking (ds : List Defect) : Nat :=
  (ds.filter (fun d => d.counted && d.severity = .blocking)).length

/-- A reel record with the given list of entries and both counts brought up to date (R102). -/
def Reel.withDefects (r : Reel) (ds : List Defect) : Reel :=
  { r with defects := ds, openCount := countOpen ds, blockingCount := countBlocking ds }

/-- The first entry of a list that satisfies `test`, changed by `f`: the list after the change and the entry as
it stood; none when no entry does. -/
def changeFirst (test : Defect → Bool) (f : Defect → Defect) : List Defect → Option (List Defect × Defect)
  | [] => none
  | d :: ds =>
    if test d then some (f d :: ds, d)
    else (changeFirst test f ds).map (fun e => (d :: e.1, e.2))

/-- A new entry placed after every entry whose first frame is equal to or below its own and before every entry
whose first frame is above it (R93). -/
def insertDefect (e : Defect) : List Defect → List Defect
  | [] => [e]
  | d :: ds => if e.first < d.first then e :: d :: ds else d :: insertDefect e ds

/-- A detection, as every raiser hands it over (05 section 5.4). -/
structure Detection where
  reel : Nat
  f : Nat
  span : Nat
  kind : DefectKind
  severity : Severity
  pass : Nat
  origin : Origin
  note : Option Nat

/-- The outcomes of a detection, each but the last with the number of the entry that took it (R101). -/
inductive DetectOutcome
  | newEntry (number : Nat)
  | merge (number : Nat)
  | reopening (number : Nat)
  | deferral (number : Nat)
  | coalesce (number : Nat)
  | noEntry
deriving DecidableEq, Repr

/-- The order of R101 (R180). -/
def DetectOutcome.code : DetectOutcome → Nat
  | .newEntry _ => 0 | .merge _ => 1 | .reopening _ => 2 | .deferral _ => 3 | .coalesce _ => 4
  | .noEntry => 5

/-- The entry that took the detection (R101). -/
def DetectOutcome.number : DetectOutcome → Option Nat
  | .newEntry n => some n
  | .merge n => some n
  | .reopening n => some n
  | .deferral n => some n
  | .coalesce n => some n
  | .noEntry => none

/-- What an absorbed detection does to the severity and note of an entry: BLOCKING raises COSMETIC, and a note
is set when the entry has none (R96, R97, R98). -/
def Defect.absorb (d : Defect) (x : Detection) : Defect :=
  { d with
    severity := if x.severity = .blocking then .blocking else d.severity
    note := match d.note with
      | some n => some n
      | none => x.note }

/-- Step 1: the entry takes a merge of the detection (R96). -/
def mergeTakes (x : Detection) (d : Defect) : Bool :=
  d.kind = x.kind && d.covers x.f &&
    (match d.state with
      | .opened => true
      | .claimed _ => true
      | .deferred => true
      | _ => false)

/-- Step 1: the entry after the merge; only an OPEN one grows, to 255 frames at most (R96). -/
def mergeInto (x : Detection) (d : Defect) : Defect :=
  let d' := d.absorb x
  match d.state with
  | .opened =>
    if d.last < x.f + x.span - 1 then { d' with span := min 255 (x.f + x.span - d.first) } else d'
  | _ => d'

/-- Step 2: the entry is a repair that the detection finds again, within one frame on each side (R97). -/
def redetects (x : Detection) (d : Defect) : Bool :=
  d.kind = x.kind && d.state = .repaired && d.first ≤ x.f + x.span && x.f ≤ d.last + 1

/-- Step 2: the entry after the redetection, OPEN at the first two attempts and DEFERRED at the third; a BLOCKING
detection raises its severity each time (R95, R97). That the third leaves the note as it was is DEDUCED, log 27. -/
def redetected (x : Detection) (d : Defect) : Defect :=
  let d' := d.absorb x
  if d.attempts + 1 < 3 then { d' with attempts := d.attempts + 1, state := .opened }
  else { d' with attempts := d.attempts + 1, state := .deferred, note := d.note }

/-- Step 3: the entry is an OPEN one that ends just before the detection and has room for it (R98). -/
def coalesceTakes (x : Detection) (d : Defect) : Bool :=
  d.kind = x.kind && d.state = .opened && d.last + 1 = x.f && d.span + x.span ≤ 255

/-- Step 3: the entry grown by the detection (R98). -/
def coalesced (x : Detection) (d : Defect) : Defect := { d.absorb x with span := d.span + x.span }

/-- Step 4: the new entry of a detection (R94, R99). -/
def newDefect (x : Detection) (number : Nat) (generation : Bool) : Defect where
  number := number
  first := x.f
  span := x.span
  kind := x.kind
  severity := x.severity
  origin := x.origin
  state := .opened
  attempts := 0
  pass := x.pass
  note := x.note
  generation := generation

/-- Step 4: a new entry in the lowest free place, or none when the pool or the reel has no room
(R92, R99, R100). -/
def makeEntry (x : Detection) (i : Nat) (r : Reel) (s : State) : State × DetectOutcome :=
  if Config.reelDefects ≤ r.defects.length then (s, .noEntry)
  else match lowestFree Config.defectPlaces (s.allDefects.map (·.number)) with
    | none => (s, .noEntry)
    | some n =>
      (testDefectPool
        (s.putReel i (r.withDefects (insertDefect (newDefect x n r.generation) r.defects))),
       .newEntry n)

/-- A detection decided on the list of its reel, in the steps of section 5.4, at the first step that takes it
(R96 to R101). -/
def raiseDetection (x : Detection) (s : State) : State × DetectOutcome :=
  match s.findReel x.reel with
  | none => (s, .noEntry)
  | some (i, r) =>
    match changeFirst (mergeTakes x) (mergeInto x) r.defects with
    | some (ds, d) => (s.putReel i (r.withDefects ds), .merge d.number)
    | none =>
      match changeFirst (redetects x) (redetected x) r.defects with
      | some (ds, d) =>
        let s' := s.putReel i (r.withDefects ds)
        if d.attempts + 1 < 3 then (s', .reopening d.number)
        else (raiseAlert .repairExhausted (some r.id) none s', .deferral d.number)
      | none =>
        if x.kind.coalesces then
          match changeFirst (coalesceTakes x) (coalesced x) r.defects with
          | some (ds, d) => (s.putReel i (r.withDefects ds), .coalesce d.number)
          | none => makeEntry x i r s
        else makeEntry x i r s

/-- The defects-raised counter of the pass on a transport advances for a new entry (R86). -/
def countRaised (t : Transport) (e : State × DetectOutcome) : State :=
  match e.2 with
  | .newEntry _ =>
    e.1.setPass t ((e.1.pass t).map (fun p => { p with defectsRaised := satSucc 65535 p.defectsRaised }))
  | _ => e.1

/-- A detection of the registration unit or the pass controller on transport `t`: span 1, the default severity of
its kind, origin RUn and the pass number of the pass (05 section 5.4, R79, R86). -/
def unitDetection (t : Transport) (reel f : Nat) (kind : DefectKind) (pass : Nat) : Detection where
  reel := reel
  f := f
  span := 1
  kind := kind
  severity := kind.severity
  pass := pass
  origin := .unit t
  note := none

/-- A detection raised for the open pass on a transport, and counted for it (R79, R86). -/
def raiseForPass (t : Transport) (reel f : Nat) (kind : DefectKind) (s : State) : State :=
  countRaised t (raiseDetection
    (unitDetection t reel f kind (((s.pass t).map (·.number)).getD 0)) s)

/-- The claims of a port on a list returned to OPEN (R107). -/
def returnClaims (p : Port) (ds : List Defect) : List Defect :=
  ds.map (fun d => if d.state = .claimed p then { d with state := .opened } else d)

/-- Some entry in OPEN, CLAIMED or REPAIRED state covers frame `f`: the defect here question (R113). -/
def defectHere (ds : List Defect) (f : Nat) : Bool := ds.any (fun d => d.counted && d.covers f)

/-- Some SPLICE entry in a state other than REMOVED covers one of the frames f − 1, f and f + 1: the splice
question (R113, R116). -/
def spliceNear (ds : List Defect) (f : Nat) : Bool :=
  ds.any (fun d => d.kind = .splice && d.state ≠ .removed && d.first ≤ f + 1 && f ≤ d.last + 1)

/-- The entries of a reel, none listed when no record carries the ID. -/
def State.defectsOf (s : State) (reel : Nat) : List Defect :=
  ((s.findReel reel).map (fun e => e.2.defects)).getD []

/-- The verification walk: each REPAIRED entry whose frames lie in the covered range becomes VERIFIED
(R109). -/
def verifyEntry (f0 : Nat) (highest : Option Nat) (d : Defect) : Defect :=
  match highest with
  | some h => if d.state = .repaired ∧ f0 ≤ d.first ∧ d.last ≤ h then { d with state := .verified } else d
  | none => d

/-- The number of entries that the walk verifies (R109). -/
def verifiedCount (f0 : Nat) (highest : Option Nat) (ds : List Defect) : Nat :=
  (ds.filter (fun d => verifyEntry f0 highest d ≠ d)).length

end Sys2Proof.Machine
end

