-- ==== Sys2Proof/Machine/Custody.lean ====
section
/-! DEFINITION. Custody of reels: grants, wait queues, the resting timer, exposure, and the entry into and the
leaving of MOVE_FAULT (chapter 1). -/

namespace Sys2Proof.Machine

/-- The states in which exposure counts (R19). -/
def Custody.exposes : Custody → Bool
  | .resting _ => true
  | .ready => true
  | .granted _ _ => true
  | .held _ => true
  | .inbound => true
  | .moveFault .inbound => true
  | _ => false

/-- A reel record as a grant leaves it: held by the port with the threading timer loaded, the port gone from the
queue, and the lapsed port cleared when it is the port granted (R12). -/
def Reel.grantedTo (r : Reel) (p : Port) (timeout : Nat) : Reel :=
  { r with
    custody := .granted p timeout
    waiters := r.waiters.filter (fun q => q ≠ p)
    lapsed := if r.lapsed = some p then none else r.lapsed }

/-- A port leaves every wait queue but that of the reel in place `i`, with a QUEUE_DROPPED notice of reason
GRANTED_OTHER for each, in the order of the record index (R11, R12). -/
def leaveOtherQueues (p : Port) (i : Nat) (s : State) : State :=
  (s.reels.filter (fun e => e.1 ≠ i && e.2.waiters.contains p)).foldl
    (fun s e =>
      notify p (.queueDropped e.2.id .grantedOther)
        (s.modReel e.1 (fun r => { r with waiters := r.waiters.filter (fun q => q ≠ p) })))
    s

/-- A grant of the reel in place `i`; one made by the reel table itself places a GRANTED notice (R12). -/
def grant (byTable : Bool) (p : Port) (i : Nat) (s : State) : State :=
  match s.reelAt i with
  | none => s
  | some r =>
    let s' := leaveOtherQueues p i (s.putReel i (r.grantedTo p s.settings.threading))
    if byTable then notify p (.granted r.id s.settings.threading) s' else s'

/-- The reel in place `i` becomes READY, and the head of a non-empty wait queue is granted in the same event
(R12). -/
def makeReady (i : Nat) (s : State) : State :=
  match s.reelAt i with
  | none => s
  | some r =>
    let s' := s.putReel i { r with custody := .ready }
    match r.waiters with
    | [] => s'
    | p :: _ => grant true p i s'

/-- The reel in place `i` becomes RESTING with the full preset of its zone, or READY with a preset of 0; exposure
begins at 0 seconds (R8, R10, R19). DEDUCED, log 26. -/
def makeResting (i : Nat) (s : State) : State :=
  match s.reelAt i with
  | none => s
  | some r =>
    let preset := zonePreset s.settings r.zone
    if preset = 0 then makeReady i (s.putReel i { r with exposureSeconds := 0 })
    else s.putReel i { r with custody := .resting (preset * 60), exposureSeconds := 0 }

/-- A drop of the whole wait queue of the reel in place `i` (R11). -/
def dropQueue (i : Nat) (reason : DropReason) (s : State) : State :=
  match s.reelAt i with
  | none => s
  | some r =>
    r.waiters.foldl (fun s p => notify p (.queueDropped r.id reason) s)
      (s.putReel i { r with waiters := [] })

/-- The reel in place `i` becomes SHELVED: its rack position is freed and its order removed, its exposure and
OVEREXPOSED flag are cleared, its condition alerts are removed, and any wait queue is dropped (R8, R9, R20, R28,
R31). DESIGN CHOICE, log 18. -/
def makeShelved (i : Nat) (s : State) : State :=
  match s.reelAt i with
  | none => s
  | some r =>
    let s1 := s.putReel i
      { r with custody := .shelved, rack := none, exposure := 0, exposureSeconds := 0, overexposed := false }
    let s2 := match r.rack with
      | some k => { s1 with rack := tableErase s1.rack k, orders := tableErase s1.orders k }
      | none => s1
    let s3 := if r.overexposed then removeAlert .exposureLimit (some r.id) none s2 else s2
    let s4 := if r.inFault then removeAlert .moveFault (some r.id) none s3 else s3
    dropQueue i .shelved s4

/-- The reel in place `i` becomes MOVE_FAULT, and the alert is raised (R9). -/
def makeFault (i : Nat) (dir : Direction) (s : State) : State :=
  match s.reelAt i with
  | none => s
  | some r =>
    raiseAlert .moveFault (some r.id) none (s.putReel i { r with custody := .moveFault dir })

/-- The exposure test of the reel in place `i`: at or above a limit other than 0 for the first time, it becomes
OVEREXPOSED, the alert is raised and its wait queue is dropped (R20). -/
def testExposure (i : Nat) (s : State) : State :=
  match s.reelAt i with
  | none => s
  | some r =>
    let limit := zoneLimit s.settings r.zone
    if r.overexposed = false ∧ limit ≠ 0 ∧ limit ≤ r.exposure then
      dropQueue i .exposure
        (raiseAlert .exposureLimit (some r.id) none (s.putReel i { r with overexposed := true }))
    else s

/-- The exposure seconds of the reel in place `i` pass 59: the accumulator advances, saturating, and is tested
(R19, R20). A reel in a state that does not count is left as it is. -/
def exposureMinute (i : Nat) (s : State) : State :=
  match s.reelAt i with
  | none => s
  | some r =>
    if r.custody.exposes then
      testExposure i (s.putReel i { r with exposureSeconds := 0, exposure := satSucc 65535 r.exposure })
    else s

/-- The resting timer of the reel in place `i` expires; it runs only in RESTING (R10). -/
def restingExpiry (i : Nat) (s : State) : State :=
  match s.reelAt i with
  | none => s
  | some r =>
    match r.custody with
    | .resting _ => makeReady i s
    | _ => s

/-- The holder's claims on the reel in place `i` are returned, the holder removed, and the reel becomes READY with
the grant of the head of its queue; `before` is what the event does between the two (R15, R17, R107). -/
def endCustody (i : Nat) (holder : Port) (lapsed : Option Port) (before : State → State) (s : State) : State :=
  match s.reelAt i with
  | none => s
  | some r =>
    makeReady i (before (s.putReel i
      { r with defects := returnClaims holder r.defects, lapsed := lapsed, custody := .ready }))

/-- The threading timer of the reel in place `i` expires: the grant lapses (R15). It runs only in GRANTED. -/
def threadingExpiry (i : Nat) (s : State) : State :=
  match s.reelAt i with
  | none => s
  | some r =>
    match r.custody with
    | .granted p _ => endCustody i p (some p) (notify p (.lapsed r.id)) s
    | _ => s

/-- A timer event of the running part, on the place of the reel that carries an ID; an event of a reel that is not
in the table, or of a stopped part, has no effect. DESIGN CHOICE, log 3. -/
def onTimer (reel : Nat) (event : Nat → State → State) (s : State) : State :=
  match s.phase with
  | .running =>
    match s.findReel reel with
    | some (i, _) => event i s
    | none => s
  | _ => s

/-- RESTING_TIMER_EXPIRY (R10). -/
def execRestingTimerExpiry (reel : Nat) (s : State) : Host.Outcome State Fault Refusal :=
  done (onTimer reel restingExpiry s)

/-- THREADING_TIMER_EXPIRY (R15). -/
def execThreadingTimerExpiry (reel : Nat) (s : State) : Host.Outcome State Fault Refusal :=
  done (onTimer reel threadingExpiry s)

/-- EXPOSURE_MINUTE (R19). -/
def execExposureMinute (reel : Nat) (s : State) : Host.Outcome State Fault Refusal :=
  done (onTimer reel exposureMinute s)

/-! ### Custody requests -/

/-- The body of an OK custody reply: the record index and the custody state after the request (R4, R182). -/
def custodyBody (i : Nat) (s : State) : Bytes :=
  u8 i ++ u8Absent ((s.reelAt i).map (fun r => r.custody.code))

/-- An OK custody reply (R4). -/
def custodyOk (i : Nat) (s : State) : Answer := ⟨.ok, custodyBody i s, s⟩

/-- The place of a port in a wait queue, counted from 1 (R13). -/
def placeInQueue (p : Port) (q : List Port) : Nat := q.idxOf p + 1

/-- The QUEUED branch of TAKE (R13). -/
def joinQueue (p : Port) (i : Nat) (r : Reel) (s : State) : Answer :=
  if r.waiters.contains p then ⟨.queued, u8 (placeInQueue p r.waiters), s⟩
  else if Config.waitPlaces ≤ r.waiters.length then refuse .queueFull s
  else ⟨.queued, u8 (r.waiters.length + 1), s.putReel i { r with waiters := r.waiters ++ [p] }⟩

/-- TAKE(reel): the checks of R13 in order, then by state. -/
def takeOwner (p : Port) (reel : Nat) (s : State) : Answer :=
  withFreeReel reel s (fun i r =>
    if r.custody.holder = some p then custodyOk i s
    else if (s.heldBy p).isSome then refuse .holdsOther s
    else if r.overexposed then refuse .overExposed s
    else match r.custody with
      | .shelved => refuse .wrongState s
      | .inbound => refuse .wrongState s
      | .moveFault _ => refuse .wrongState s
      | .ready => custodyOk i (grant false p i s)
      | .outbound => joinQueue p i r s
      | .resting _ => joinQueue p i r s
      | .granted _ _ => joinQueue p i r s
      | .held _ => joinQueue p i r s)

/-- WITHDRAW(reel) (R14). -/
def withdrawOwner (p : Port) (reel : Nat) (s : State) : Answer :=
  withFreeReel reel s (fun i r =>
    if r.waiters.contains p then
      custodyOk i (s.putReel i { r with waiters := r.waiters.filter (fun q => q ≠ p) })
    else refuse .wrongState s)

/-- The check that the requesting port is the holder: LAPSED for the lapsed port, NOT_HOLDER otherwise
(R16, R17). -/
def asHolder (p : Port) (r : Reel) (s : State) (f : Answer) : Answer :=
  if r.custody.holder = some p then f
  else if r.lapsed = some p then refuse .lapsed s
  else refuse .notHolder s

/-- MOUNTED(reel): GRANTED becomes HELD with the threading timer stopped; HELD is left as it is (R16). -/
def mountedOwner (p : Port) (reel : Nat) (s : State) : Answer :=
  withFreeReel reel s (fun i r =>
    asHolder p r s (custodyOk i (s.putReel i { r with custody := .held p })))

/-- RELEASE(reel) (R17). -/
def releaseOwner (p : Port) (reel : Nat) (s : State) : Answer :=
  withFreeReel reel s (fun i r =>
    asHolder p r s
      (if (s.passOn r.id).isSome then refuse .passActive s
       else custodyOk i (endCustody i p r.lapsed id s)))

/-- TAKE (R13). -/
def execTake (p : Port) (reel : Nat) (s : State) : Host.Outcome State Fault Refusal :=
  done (request p .take (takeOwner p reel) s)

/-- WITHDRAW (R14). -/
def execWithdraw (p : Port) (reel : Nat) (s : State) : Host.Outcome State Fault Refusal :=
  done (request p .withdraw (withdrawOwner p reel) s)

/-- MOUNTED (R16). -/
def execMounted (p : Port) (reel : Nat) (s : State) : Host.Outcome State Fault Refusal :=
  done (request p .mounted (mountedOwner p reel) s)

/-- RELEASE (R17). -/
def execRelease (p : Port) (reel : Nat) (s : State) : Host.Outcome State Fault Refusal :=
  done (request p .release (releaseOwner p reel) s)

end Sys2Proof.Machine
end

