-- ==== Sys2Proof/Machine/Lights.lean ====
section
/-! DEFINITION. The lights unit: effective lights, gains and scene flags of one frame from a scene list and a
trim (07 sections 7.5 and 7.6). -/

namespace Sys2Proof.Machine

/-- The governing scene of frame `f` with the scenes before and after it in the list; `before` is the scene before
the head (R144). -/
def governing (f : Nat) : Option Scene → List Scene → Option (Option Scene × Scene × Option Scene)
  | _, [] => none
  | before, c :: cs =>
    if f < c.start then none
    else match governing f (some c) cs with
      | some g => some g
      | none => some (before, c, cs.head?)

/-- A light with its trim: clamp(l + t, 0, 50) (R144). -/
def trimmed (l : Nat) (t : Int) : Int := clampInt (l + t) 0 50

/-- The neutral light (R144). -/
def neutralLight : Nat := 25

/-- The fade in force: the fade length of the scene, at most its room before the next scene (R144). -/
def fadeInForce (c : Scene) (next : Option Scene) : Nat :=
  match next with
  | none => c.fade
  | some n => min c.fade (n.start - c.start)

/-- Frame `f` of scene `c` is a fade frame (R145). -/
def isFadeFrame (f : Nat) (c : Scene) (n : Nat) : Bool := 1 ≤ n && f < c.start + n

/-- The effective light of one channel on the way from `la` to `lb`, at fade step `step` of a fade in force of `n`
frames (R145). -/
def fadeLight (la lb : Int) (step n : Nat) : Int := la + roundAway ((lb - la) * step) (n + 1)

/-- The effective light of one channel of frame `f`; `light` reads the channel of a scene (R144, R145). -/
def channelLight (f : Nat) (light : Scene → Nat) (t : Int) (cs : List Scene) : Nat :=
  match governing f none cs with
  | none => (trimmed neutralLight t).toNat
  | some (before, c, next) =>
    let la := match before with
      | some a => trimmed (light a) t
      | none => trimmed neutralLight t
    let lb := trimmed (light c) t
    let n := fadeInForce c next
    if isFadeFrame f c n then (fadeLight la lb (f - c.start + 1) n).toNat else lb.toNat

/-- The mantissa table of R147. -/
def mantissas : List Nat := [4096, 4340, 4598, 4871, 5161, 5468, 5793, 6137, 6502, 6889, 7298, 7732]

/-- The channel gain of an effective light (R147). -/
def gainOf (light : Nat) : Nat :=
  let k : Int := (light : Int) - 25
  let q : Int := k.fdiv 12
  let m := mantissas.getD (k - 12 * q).toNat 0
  if 0 ≤ q then m * 2 ^ q.toNat else (m + 2 ^ ((-q).toNat - 1)) / 2 ^ (-q).toNat

/-- What the lights unit gives for one frame (R145, R147, R149). -/
structure FrameGrade where
  lights : Channels Nat
  gains : Channels Nat
  sceneStart : Bool
  inFade : Bool
  /-- the start frame of the governing scene -/
  scene : Option Nat
  /-- the fade in force, 0 with no governing scene -/
  fade : Nat
deriving DecidableEq, Repr

/-- The gains of three lights (R147). -/
def gainsOf (l : Channels Nat) : Channels Nat := ⟨gainOf l.r, gainOf l.g, gainOf l.b⟩

/-- The effective lights of frame `f` (R144, R145). -/
def lightsAt (f : Nat) (cs : List Scene) (t : Channels Int) : Channels Nat :=
  ⟨channelLight f (·.lights.r) t.r cs, channelLight f (·.lights.g) t.g cs, channelLight f (·.lights.b) t.b cs⟩

/-- The grade of frame `f` from a scene list and a trim (R144 to R147). -/
def frameGrade (f : Nat) (cs : List Scene) (t : Channels Int) : FrameGrade :=
  match governing f none cs with
  | none =>
    { lights := lightsAt f cs t, gains := gainsOf (lightsAt f cs t), sceneStart := false, inFade := false,
      scene := none, fade := 0 }
  | some (_, c, next) =>
    { lights := lightsAt f cs t, gains := gainsOf (lightsAt f cs t), sceneStart := c.start = f,
      inFade := isFadeFrame f c (fadeInForce c next), scene := some c.start, fade := fadeInForce c next }

/-- The grade of an inspect tag: neutral lights, unity gains, no scene flag (R81). -/
def neutralGrade : FrameGrade where
  lights := ⟨25, 25, 25⟩
  gains := ⟨4096, 4096, 4096⟩
  sceneStart := false
  inFade := false
  scene := none
  fade := 0

end Sys2Proof.Machine
end

