-- ==== Sys2Proof/Machine/Grading.lean ====
section
/-! DEFINITION. The scene store: scene lists, held edits and commits, the grade lock, and the reading of a grade
(chapter 7). -/

namespace Sys2Proof.Machine

/-! ### Edits -/

/-- The place of a scene that a batch has made and that has no place of the pool yet. -/
def unplaced : Nat := Config.scenePlaces

/-- A scene set at its start frame: its lights and fade replaced where a scene stands, else a new scene placed by
its start frame (R135). -/
def setSceneIn (start : Nat) (lights : Channels Nat) (fade : Nat) (generation : Bool) : List Scene → List Scene
  | [] => [{ place := unplaced, start := start, lights := lights, fade := fade, generation := generation }]
  | c :: cs =>
    if start < c.start then
      { place := unplaced, start := start, lights := lights, fade := fade, generation := generation } :: c :: cs
    else if c.start = start then { c with lights := lights, fade := fade } :: cs
    else c :: setSceneIn start lights fade generation cs

/-- The scene at a start frame removed (R136). -/
def deleteSceneIn (start : Nat) (cs : List Scene) : List Scene := cs.filter (fun c => c.start ≠ start)

/-- One edit applied to a scene list and a trim (R135, R136, R137). -/
def applyEdit (generation : Bool) (g : List Scene × Channels Int) : Edit → List Scene × Channels Int
  | .setScene start lights fade => (setSceneIn start lights fade generation g.1, g.2)
  | .deleteScene start => (deleteSceneIn start g.1, g.2)
  | .setTrim t => (g.1, t)

/-- A batch of edits applied in order (R139). -/
def applyEdits (generation : Bool) (g : List Scene × Channels Int) (es : List Edit) :
    List Scene × Channels Int :=
  es.foldl (applyEdit generation) g

/-- The edits that the buffer holds for a reel (R138). -/
def State.heldFor (s : State) (reel : Nat) : List Edit :=
  match s.heldEdits with
  | some h => if h.reel = reel then h.edits else []
  | none => []

/-- The edit view of a reel: its committed list with the edits held for it applied (R136). -/
def editView (r : Reel) (s : State) : List Scene :=
  (applyEdits r.generation (r.scenes, r.trim) (s.heldFor r.id)).1

/-- Every unplaced scene of a list given the lowest free place, in list order (R130). DESIGN CHOICE, log 16. -/
def placeScenes (used : List Nat) : List Scene → List Scene
  | [] => []
  | c :: cs =>
    if c.place = unplaced then
      let k := (lowestFree Config.scenePlaces used).getD unplaced
      { c with place := k } :: placeScenes (k :: used) cs
    else c :: placeScenes used cs

/-- The places of the pool that stay taken while a reel's list becomes `cs` (R130). -/
def placesKept (i : Nat) (cs : List Scene) (s : State) : List Nat :=
  (s.reels.filter (fun e => e.1 ≠ i)).flatMap (fun e => e.2.scenes.map (·.place)) ++ cs.map (·.place)

/-- The position in a batch of its first SET_SCENE at or above the frame count, counted from 1 (R139). -/
def firstOutside (count : Nat) (es : List Edit) : Option Nat :=
  (es.findIdx? (fun e => match e with
    | .setScene start _ _ => count ≤ start
    | _ => false)).map (· + 1)

/-- The values of an edit as clamped, which an edit answered CLAMPED gives before the rest of its body, and the
result code that clamping leaves (R134). -/
structure ClampNote where
  clamped : Bool
  values : Bytes

/-- OK, or CLAMPED with the clamped values before the body (R134). DEDUCED, log 10. -/
def ClampNote.answer (c : ClampNote) (body : Bytes) (s : State) : Answer :=
  if c.clamped then ⟨.clamped, c.values ++ body, s⟩ else ⟨.ok, body, s⟩

/-- Three trims as bytes (R180). -/
def trimBytes (t : Channels Int) : Bytes := leInt 1 t.r ++ leInt 1 t.g ++ leInt 1 t.b

/-- A batch of edits of the reel in place `i`, checked and applied in one change; `held` is the buffer afterwards.
SCENE_POOL_FULL is tested when the free count changes (R132, R139, R140). A result beyond both limits names the reel:
DESIGN CHOICE, log 30. -/
def commit (i : Nat) (r : Reel) (batch : List Edit) (held : Option HeldEdits) (c : ClampNote) (s : State) :
    Answer :=
  let g := applyEdits r.generation (r.scenes, r.trim) batch
  match r.frameCount.bind (fun n => firstOutside n batch) with
  | some position => ⟨.outOfRange, u8 position, s⟩
  | none =>
    if Config.reelScenes < g.1.length then ⟨.poolFull, u8 1, s⟩
    else if s.sceneFree < g.1.length - r.scenes.length then ⟨.poolFull, u8 2, s⟩
    else
      let cs := placeScenes (placesKept i g.1 s) g.1
      let s1 : State :=
        { s.putReel i { r with scenes := cs, sceneCount := cs.length, trim := g.2 } with heldEdits := held }
      let s' := if cs.length = r.scenes.length then s1 else testScenePool s1
      c.answer (u8 batch.length ++ u16 cs.length ++ trimBytes g.2 ++ u16 s'.sceneFree) s'

/-- The buffer abandoned with an EDIT_ABANDONED notice to P4, when it holds edits for the reel
(R6, R118, R141). -/
def abandonFor (reel : Nat) (cause : AbandonCause) (s : State) : State :=
  match s.heldEdits with
  | some h =>
    if h.reel = reel then
      notify .p4 (.editAbandoned h.reel h.edits.length cause) { s with heldEdits := none }
    else s
  | none => s

/-- An edit taken into the held-edit buffer (R138). -/
def holdEdit (reel : Nat) (e : Edit) (c : ClampNote) (s : State) : Answer :=
  match s.heldEdits with
  | none => c.answer (u32 reel ++ u8 1) { s with heldEdits := some ⟨reel, [e]⟩ }
  | some h =>
    if h.reel = reel then
      if Config.heldEdits ≤ h.edits.length then ⟨.poolFull, u8 0, s⟩
      else c.answer (u32 reel ++ u8 (h.edits.length + 1)) { s with heldEdits := some ⟨reel, h.edits ++ [e]⟩ }
    else
      c.answer (u32 reel ++ u8 1)
        { notify .p4 (.editAbandoned h.reel h.edits.length .otherReel) s with heldEdits := some ⟨reel, [e]⟩ }

/-- A committed edit: with the edits held for its reel, or alone when the buffer names another reel
(R139, R140). -/
def commitEdit (i : Nat) (r : Reel) (e : Edit) (c : ClampNote) (s : State) : Answer :=
  commit i r (s.heldFor r.id ++ [e])
    (match s.heldEdits with
      | some h => if h.reel = r.id then none else some h
      | none => none) c s

/-- The start frame of an edit lies outside its range: check 6 of R133. -/
def startOutside (r : Reel) (start : Nat) : Bool :=
  Config.lastFrame < start ||
    (match r.frameCount with
      | some n => n ≤ start
      | none => false)

/-- Check 6 of R133 for an edit. -/
def editOutside (r : Reel) : Edit → Bool
  | .setScene start _ _ => startOutside r start
  | .deleteScene start => startOutside r start
  | .setTrim _ => false

/-- Check 7 of R133 for an edit: a DELETE_SCENE at which no scene stands in the edit view. -/
def editMissing (r : Reel) (s : State) : Edit → Bool
  | .deleteScene start => !(editView r s).any (fun c => c.start = start)
  | _ => false

/-- An edit request: the checks of R133 in order, then held or committed. -/
def editOwner (reel hold : Nat) (e : Edit) (c : ClampNote) (s : State) : Answer :=
  match yesNo hold with
  | none => refuse .badRequest s
  | some held =>
    withFreeReel reel s (fun i r =>
      if r.gradeLocked then refuse .gradeLocked s
      else if editOutside r e then refuse .outOfRange s
      else if editMissing r s e then refuse .noSuchScene s
      else if held then holdEdit reel e c s
      else commitEdit i r e c s)

/-- SET_SCENE with its lights and fade clamped (R134, R135). -/
def setSceneOwner (reel start r g b fade hold : Nat) (s : State) : Answer :=
  let l : Channels Nat := ⟨clampNat r 0 50, clampNat g 0 50, clampNat b 0 50⟩
  let n := clampNat fade 0 48
  editOwner reel hold (.setScene start l n)
    { clamped := l ≠ ⟨r, g, b⟩ ∨ n ≠ fade, values := u8 l.r ++ u8 l.g ++ u8 l.b ++ u8 n } s

/-- DELETE_SCENE (R136). -/
def deleteSceneOwner (reel start hold : Nat) (s : State) : Answer :=
  editOwner reel hold (.deleteScene start) { clamped := false, values := [] } s

/-- SET_TRIM with its trims clamped (R134, R137). -/
def setTrimOwner (reel : Nat) (r g b : Int) (hold : Nat) (s : State) : Answer :=
  let t : Channels Int := ⟨clampInt r (-12) 12, clampInt g (-12) 12, clampInt b (-12) 12⟩
  editOwner reel hold (.setTrim t) { clamped := t ≠ ⟨r, g, b⟩, values := trimBytes t } s

/-- ABANDON_EDIT (R141). -/
def abandonEditOwner (s : State) : Answer :=
  match s.heldEdits with
  | some h => ⟨.ok, u32 h.reel ++ u8 h.edits.length, { s with heldEdits := none }⟩
  | none => ⟨.ok, u32 0 ++ u8 0, s⟩

/-! ### The grade lock -/

/-- The body of LOCK_GRADE: scene count and trim as locked (R142). -/
def lockBody (r : Reel) : Bytes := u16 r.sceneCount ++ trimBytes r.trim

/-- LOCK_GRADE(reel) (R142). -/
def lockGradeOwner (reel : Nat) (s : State) : Answer :=
  withFreeReel reel s (fun i r =>
    if s.heldFor r.id ≠ [] then refuse .editOpen s
    else if r.countConfirmed = false then refuse .countUnconfirmed s
    else ⟨.ok, lockBody r, s.putReel i { r with gradeLocked := true }⟩)

/-- UNLOCK_GRADE(reel) (R143). -/
def unlockGradeOwner (reel : Nat) (s : State) : Answer :=
  withFreeReel reel s (fun i r =>
    if s.anyPassOn r.id (fun p => p.kind = .graded) then refuse .passActive s
    else ⟨.ok, [], s.putReel i { r with gradeLocked := false }⟩)

/-! ### Reading the grade -/

/-- The scene item of READ_SCENES (R182). -/
def sceneItem (c : Scene) : Bytes :=
  u16 c.start ++ u8 c.lights.r ++ u8 c.lights.g ++ u8 c.lights.b ++ u8 c.fade

/-- The part of a list that one request lists: from a position, within the count asked and the items that fit. -/
def listed {α : Type} (l : List α) (index count fit : Nat) : List α := (l.drop index).take (min count fit)

/-- The position at which a further request should begin (R111, R148). -/
def nextPosition (length index count fit : Nat) : Nat :=
  if length ≤ index then length else min length (index + min count fit)

/-- The body of READ_SCENES (R148, R182). -/
def scenesBody (r : Reel) (index count : Nat) (s : State) : Bytes :=
  u16 r.sceneCount ++ trimBytes r.trim ++ u8 (flagBits [r.gradeLocked, r.gradedDone]) ++
    u8 (s.heldFor r.id).length ++ u16 (nextPosition r.scenes.length index count 83) ++
    (listed r.scenes index count 83).flatMap sceneItem

/-- READ_SCENES(reel, from, count) (R148). -/
def readScenesOwner (reel index count : Nat) (s : State) : Answer :=
  withFreeReel reel s (fun _ r =>
    if Config.reelScenes ≤ index ∨ count = 0 ∨ Config.reelScenes < count then refuse .outOfRange s
    else ⟨.ok, scenesBody r index count s, s⟩)

/-- The body of PREVIEW_LIGHTS (R149). -/
def previewBody (r : Reel) (f : Nat) : Bytes :=
  let g := frameGrade f r.scenes r.trim
  u8 g.lights.r ++ u8 g.lights.g ++ u8 g.lights.b ++ u16 g.gains.r ++ u16 g.gains.g ++ u16 g.gains.b ++
    flag g.sceneStart ++ flag g.inFade ++ u16Absent g.scene ++ u8 g.fade ++ flag (defectHere r.defects f)

/-- PREVIEW_LIGHTS(reel, frame) (R149). -/
def previewLightsOwner (reel f : Nat) (s : State) : Answer :=
  withFreeReel reel s (fun _ r =>
    if Config.lastFrame < f then refuse .outOfRange s else ⟨.ok, previewBody r f, s⟩)

/-! ### The commands -/

/-- SET_SCENE (R135). -/
def execSetScene (p : Port) (reel start r g b fade hold : Nat) (s : State) :
    Host.Outcome State Fault Refusal :=
  done (request p .setScene (setSceneOwner reel start r g b fade hold) s)

/-- DELETE_SCENE (R136). -/
def execDeleteScene (p : Port) (reel start hold : Nat) (s : State) : Host.Outcome State Fault Refusal :=
  done (request p .deleteScene (deleteSceneOwner reel start hold) s)

/-- SET_TRIM (R137). -/
def execSetTrim (p : Port) (reel : Nat) (r g b : Int) (hold : Nat) (s : State) :
    Host.Outcome State Fault Refusal :=
  done (request p .setTrim (setTrimOwner reel r g b hold) s)

/-- ABANDON_EDIT (R141). -/
def execAbandonEdit (p : Port) (s : State) : Host.Outcome State Fault Refusal :=
  done (request p .abandonEdit abandonEditOwner s)

/-- LOCK_GRADE (R142). -/
def execLockGrade (p : Port) (reel : Nat) (s : State) : Host.Outcome State Fault Refusal :=
  done (request p .lockGrade (lockGradeOwner reel) s)

/-- UNLOCK_GRADE (R143). -/
def execUnlockGrade (p : Port) (reel : Nat) (s : State) : Host.Outcome State Fault Refusal :=
  done (request p .unlockGrade (unlockGradeOwner reel) s)

/-- READ_SCENES (R148). -/
def execReadScenes (p : Port) (reel index count : Nat) (s : State) : Host.Outcome State Fault Refusal :=
  done (request p .readScenes (readScenesOwner reel index count) s)

/-- PREVIEW_LIGHTS (R149). -/
def execPreviewLights (p : Port) (reel f : Nat) (s : State) : Host.Outcome State Fault Refusal :=
  done (request p .previewLights (previewLightsOwner reel f) s)

end Sys2Proof.Machine
end

