-- ==== Sys2Proof/Machine/Registration.lean ====
section
/-! DEFINITION. The registration units and the capture decision: what a perforation edge does, from its
classification to the frame tags and misses of its boundaries (chapter 3; 04 sections 4.3 to 4.6). -/

namespace Sys2Proof.Machine

/-! ### Gauges, pitch and shrinkage -/

/-- The nominal pitch N in micrometres (03 section 3.2). -/
def Gauge.nominal : Gauge → Nat
  | .g35x4 => 4740 | .g35x3 => 4740 | .g16x1 => 7620

/-- The perforations per frame k (03 section 3.2). -/
def Gauge.perFrame : Gauge → Nat
  | .g35x4 => 4 | .g35x3 => 3 | .g16x1 => 1

/-- P_min = 16N − floor(16N/10) (03 section 3.2). -/
def Gauge.pitchMin (g : Gauge) : Nat := 16 * g.nominal - 16 * g.nominal / 10

/-- P_max = 16N + floor(16N/50) (03 section 3.2). -/
def Gauge.pitchMax (g : Gauge) : Nat := 16 * g.nominal + 16 * g.nominal / 50

/-- An estimate clamped to the limits of its gauge (R47). -/
def clampPitch (g : Gauge) (p : Int) : Nat := (clampInt p g.pitchMin g.pitchMax).toNat

/-- The shrinkage of an estimate in basis points (R61). -/
def shrinkageOf (g : Gauge) (p : Nat) : Int := roundAway (625 * ((16 * g.nominal : Nat) - (p : Int))) g.nominal

/-- The four cases of an edge taken in LOCKED (R52). -/
inductive EdgeCase | spurious | normal | oneMissing | pitchBreak
deriving DecidableEq, Repr

/-- The interval lies in the window of a normal edge; `m16` is 16m (R52). -/
def inNormalWindow (p m16 : Nat) : Bool := p - p / 8 ≤ m16 && m16 ≤ p + p / 8

/-- The case of an edge by 16m and the estimate (R52). -/
def classify (p m16 : Nat) : EdgeCase :=
  if m16 < p - p / 8 then .spurious
  else if m16 ≤ p + p / 8 then .normal
  else if 2 * p - p / 8 ≤ m16 ∧ m16 ≤ 2 * p + p / 8 then .oneMissing
  else .pitchBreak

/-- The estimate after a normal edge: the filter of one eighth, truncated toward zero, then the clamp (R54). -/
def filteredPitch (g : Gauge) (p m16 : Nat) : Nat :=
  clampPitch g ((p : Int) + ((m16 : Int) - (p : Int)).tdiv 8)

/-- The count advance of a pitch break or of an edge in REACQUIRE: the pitches in the interval rounded to nearest,
at least 1 (R56, R57). -/
def pitchesIn (p m16 : Nat) : Nat := max 1 ((m16 + p / 2) / p)

/-- The frame number of a count (R59). -/
def UnitRun.frameOf (r : UnitRun) (c : Nat) : Nat := r.f0 + c / r.gauge.perFrame

/-- The count c, 0 before the first edge (R59). -/
def UnitRun.count (r : UnitRun) : Nat := (r.track.map (·.count)).getD 0

/-- The current frame of the unit (R59). -/
def UnitRun.currentFrame (r : UnitRun) : Nat := r.frameOf r.count

/-- The count limit of a pass (R60). -/
def UnitRun.countLimit (r : UnitRun) : Nat := r.gauge.perFrame * (65535 - r.f0) - 1

/-- The unit's fields of the pass changed by `f`. -/
def updateRun (t : Transport) (f : UnitRun → UnitRun) (s : State) : State :=
  s.setUnit t { s.unit t with run := (s.unit t).run.map f }

/-- The pass record of a transport changed by `f`. -/
def updatePass (t : Transport) (f : Pass → Pass) (s : State) : State := s.setPass t ((s.pass t).map f)

/-- The shrinkage test: S at or above the limit with SHRUNK clear sets the flag and raises SHRINKAGE (R62). -/
def shrinkTest (t : Transport) (s : State) : State :=
  match (s.unit t).run with
  | none => s
  | some run =>
    match s.findReel run.reel with
    | none => s
    | some (i, r) =>
      if r.shrunk = false ∧ (s.settings.shrinkLimit : Int) ≤ shrinkageOf run.gauge run.pitch then
        raiseAlert .shrinkage (some r.id) (some (.transport t)) (s.putReel i { r with shrunk := true })
      else s

/-! ### The end of a pass -/

/-- The end of a pass: the unit goes to IDLE keeping its figures, with the abort hold set for an abort; the record
becomes ENDED; the PASS_ENDED notice is placed for the paired port (R50, R83, R84, R85). -/
def finishPass (t : Transport) (reason : EndReason) (tail : Bool) (s : State) : State :=
  let u := s.unit t
  let hold := match reason with
    | .aborted _ => true
    | _ => u.abortHold
  let s1 := s.setUnit t { u with state := .idle, abortHold := hold }
  match s1.pass t with
  | none => s1
  | some p =>
    let p' := { p with state := .ended, reason := some reason, tail := some tail }
    notify (pairedPort t) (.passEnded t p') (s1.setPass t (some p'))

/-! ### Boundaries -/

/-- What the unit gives the pass controller with an accepted edge: the count advance and the measured time interval,
absent for the first edge (R59). -/
structure EdgeReport where
  advance : Nat
  interval : Option Nat

/-- A missed frame: the missed counter, and a MISSED_CAPTURE detection (R77). -/
def missFrame (t : Transport) (f : Nat) (s : State) : State :=
  let s1 := updatePass t (fun p => { p with missed := satSucc 65535 p.missed }) s
  match s1.pass t with
  | none => s1
  | some p => raiseForPass t p.reel f .missedCapture s1

/-- The grade of a captured frame: the committed list with the frozen trim for a GRADED pass, neutral for an INSPECT
pass (R81, R146). -/
def tagGrade (p : Pass) (f : Nat) (s : State) : FrameGrade :=
  match p.kind with
  | .inspect => neutralGrade
  | .graded =>
    frameGrade f (((s.findReel p.reel).map (fun e => e.2.scenes)).getD []) (p.frozenTrim.getD ⟨0, 0, 0⟩)

/-- The frame tag of frame `f` (R80, R81). -/
def frameTag (t : Transport) (p : Pass) (f : Nat) (mark : Bool) (s : State) : FrameTag :=
  let g := tagGrade p f s
  { transport := t, reel := p.reel, pass := p.number, frame := f, lights := g.lights, gains := g.gains,
    sceneStart := g.sceneStart, inFade := g.inFade, defectHere := defectHere (s.defectsOf p.reel) f,
    reacquired := mark,
    shrinkage := (((s.unit t).run.map (fun r => shrinkageOf r.gauge r.pitch))).getD 0 }

/-- The bytes of a frame tag as they leave on TAG (R182). -/
def FrameTag.bytes (g : FrameTag) : Bytes :=
  u8 (transportCode g.transport) ++ u32 g.reel ++ u16 g.pass ++ u16 g.frame ++
    u8 g.lights.r ++ u8 g.lights.g ++ u8 g.lights.b ++ u16 g.gains.r ++ u16 g.gains.g ++ u16 g.gains.b ++
    u8 (flagBits [g.sceneStart, g.inFade, g.defectHere, g.reacquired]) ++ leInt 2 g.shrinkage

/-- A capture: CAPTURE is pulsed, the tag follows the tags before it on TAG, and the pass counts it; its tag takes the
mark of its boundary and the one carried from a skipped capture (R76, R80, R82). -/
def captureFrame (t : Transport) (f : Nat) (mark : Bool) (s : State) : State :=
  match s.pass t with
  | none => s
  | some p =>
    let l := s.line t
    let s1 := s.setLine t
      { l with capturePulses := l.capturePulses + 1, tags := l.tags ++ [frameTag t p f (mark || p.carriedMark) s] }
    s1.setPass t (some { p with
      captured := satSucc 65535 p.captured, lastCaptured := some f, misses := 0, carriedMark := false })

/-- A speed drop: the set code falls by one, OVERSPEED is raised, the consecutive-miss counter restarts (R78). -/
def speedDrop (t : Transport) (s : State) : State :=
  let u := s.unit t
  let s1 := s.setUnit t { u with setCode := u.setCode - 1 }
  match s1.pass t with
  | none => s1
  | some p =>
    updatePass t (fun p => { p with misses := 0 })
      (raiseAlert .overspeed (some p.reel) (some (.transport t)) s1)

/-- A skipped capture: the frame is missed, and the third in a run makes a speed drop (R76, R77, R78). -/
def skipFrame (t : Transport) (f : Nat) (s : State) : State :=
  let s1 := updatePass t (fun p => { p with misses := p.misses + 1 }) (missFrame t f s)
  match s1.pass t with
  | none => s1
  | some p => if 3 ≤ p.misses then speedDrop t s1 else s1

/-- The camera cycle time of a transport (R74). -/
def cycleTime (g : Settings) : Transport → Nat
  | .t0 => g.cycle0
  | .t1 => g.cycle1

/-- The predicted frame period T = k · floor(Δt / a) (R76). -/
def framePeriod (k dt advance : Nat) : Nat := k * (dt / advance)

/-- The capture decision at a capturable boundary of frame `f`; the reacquired mark goes with the boundary and is
cleared, and the pass keeps it when the capture is skipped, since it is the first capture after the relock whose tag
carries it (R59, R76, R80). DEDUCED, log 14. -/
def decideCapture (t : Transport) (f : Nat) (e : EdgeReport) (s : State) : State :=
  match (s.unit t).run with
  | none => s
  | some run =>
    let s1 := updateRun t (fun r => { r with reacquired := false }) s
    match e.interval with
    | none => captureFrame t f run.reacquired s1
    | some dt =>
      if cycleTime s.settings t ≤ framePeriod run.gauge.perFrame dt e.advance then
        captureFrame t f run.reacquired s1
      else skipFrame t f (updatePass t (fun p => { p with carriedMark := p.carriedMark || run.reacquired }) s1)

/-- A boundary taken by the pass controller: the highest boundary, the capture decision or the miss, and the end at
the end frame. Boundaries after the end are not taken (R75). DEDUCED, log 14. -/
def takeBoundary (t : Transport) (e : EdgeReport) (f : Nat) (capturable : Bool) (s : State) : State :=
  match s.pass t with
  | none => s
  | some p =>
    if p.state = .running then
      let s1 := updatePass t (fun p => { p with highest := some f }) s
      let s2 := if capturable then decideCapture t f e s1 else missFrame t f s1
      if p.endFrame = some f then finishPass t .complete false s2 else s2
    else s

/-- The boundaries that an edge passes in going from count `old` to count `new`, in rising order: their frames, and
whether each is the boundary of the new count (R59). -/
def boundariesPassed (r : UnitRun) (old new : Nat) : List (Nat × Bool) :=
  ((List.range (new - old)).map (fun j => old + 1 + j)).filterMap (fun j =>
    if j % r.gauge.perFrame = 0 then some (r.frameOf j, j = new) else none)

/-- The boundaries of an edge reported to the pass controller; only the boundary of the new count of an edge treated
in LOCKED is capturable (R59). -/
def reportBoundaries (t : Transport) (locked : Bool) (e : EdgeReport) (bs : List (Nat × Bool)) (s : State) : State :=
  bs.foldl (fun s b => takeBoundary t e b.1 (locked && b.2) s) s

/-! ### Edges -/

/-- The first forward edge in ARMED: count 0, LOCKED, the pass RUNNING, and the capturable boundary of frame F0
(R51). -/
def firstEdge (t : Transport) (time : Word32) (run : UnitRun) (s : State) : State :=
  let u := s.unit t
  let s1 := s.setUnit t { u with
    state := .locked
    run := some { run with track := some ⟨0, u.encoder, time⟩, accepted := 1 } }
  let s2 := updatePass t (fun p => { p with state := .running }) s1
  takeBoundary t { advance := 0, interval := none } run.f0 true s2

/-- A spurious edge: the interval spurious counter and the pass's counter advance, and the third of an interval
raises EDGE_DAMAGE at the current frame unless the last one was raised there (R53, R79). -/
def spuriousEdge (t : Transport) (run : UnitRun) (s : State) : State :=
  let n := satSucc 255 run.spurious
  let s1 := updateRun t (fun r => { r with spurious := n }) s
  let s2 := updatePass t (fun p => { p with spurious := satSucc 65535 p.spurious }) s1
  if n = 3 ∧ run.lastEdgeDamage ≠ some run.currentFrame then
    raiseForPass t run.reel run.currentFrame .edgeDamage
      (updateRun t (fun r => { r with lastEdgeDamage := some run.currentFrame }) s2)
  else s2

/-- The edge would pass the count limit: it is not accepted, and the numbering-exhausted flag and mark are set
(R60, R79). -/
def exhaustNumbering (t : Transport) (s : State) : State :=
  updatePass t (fun p => { p with exhausted := true }) (updateRun t (fun r => { r with exhausted := true }) s)

/-- Step 1 of an accepted edge: the count, the last accepted position and time, the accepted edges, and the interval
spurious counter at 0 (R52). -/
def acceptEdge (t : Transport) (time : Word32) (advance : Nat) (s : State) : State :=
  let x := (s.unit t).encoder
  updateRun t (fun r => { r with
    track := some ⟨r.count + advance, x, time⟩, accepted := r.accepted + 1, spurious := 0 }) s

/-- A normal edge (R54). -/
def normalEdge (t : Transport) (run : UnitRun) (m16 : Nat) (e : EdgeReport) (accepted : State) : State :=
  let p := filteredPitch run.gauge run.pitch m16
  let s1 := updateRun t (fun r => { r with pitch := p }) accepted
  let s2 := if p = run.pitch then s1 else shrinkTest t s1
  reportBoundaries t true e (boundariesPassed run run.count (run.count + 1)) s2

/-- An edge in the window of one missing perforation (R55). -/
def missingEdge (t : Transport) (run : UnitRun) (e : EdgeReport) (accepted : State) : State :=
  reportBoundaries t true e (boundariesPassed run run.count (run.count + 2))
    (raiseForPass t run.reel (run.frameOf (run.count + 1)) .missingPerf accepted)

/-- A pitch break: REACQUIRE, and PITCH_BREAK at the frame of the new count unless a splice is known there
(R56). -/
def breakEdge (t : Transport) (run : UnitRun) (e : EdgeReport) (accepted : State) : State :=
  let f := run.frameOf (run.count + e.advance)
  let u := accepted.unit t
  let s1 := accepted.setUnit t { u with
    state := .reacquire
    run := u.run.map (fun r => { r with lockRun := 0, intervals := 0 }) }
  let s2 := if spliceNear (s1.defectsOf run.reel) f then s1 else raiseForPass t run.reel f .pitchBreak s1
  reportBoundaries t false e (boundariesPassed run run.count (run.count + e.advance)) s2

/-- The give-up of reacquisition (R58). -/
def giveUp (t : Transport) (run : UnitRun) (s : State) : State :=
  raiseAlert .registrationFailed (some run.reel) (some (.transport t))
    (finishPass t (.aborted .registrationFailed) false s)

/-- An accepted edge in REACQUIRE: counted, its lock run judged with the frozen estimate, relocked at a run of 3, and
given up at 64 intervals (R57, R58). -/
def reacquireEdge (t : Transport) (run : UnitRun) (m16 : Nat) (e : EdgeReport) (accepted : State) : State :=
  let lockRun := if inNormalWindow run.pitch m16 then run.lockRun + 1 else 0
  let u := accepted.unit t
  let relock := decide (3 ≤ lockRun)
  let s1 := accepted.setUnit t { u with
    state := if relock then .locked else .reacquire
    run := u.run.map (fun r =>
      if relock then { r with lockRun := 0, intervals := 0, reacquired := true }
      else { r with lockRun := lockRun, intervals := run.intervals + 1 }) }
  let s2 := reportBoundaries t false e (boundariesPassed run run.count (run.count + e.advance)) s1
  if relock = false ∧ 64 ≤ run.intervals + 1 ∧ (s2.unit t).state = .reacquire then giveUp t run s2 else s2

/-- A forward edge after the first, measured from the last accepted one (R52, R57, R60). -/
def measuredEdge (t : Transport) (time : Word32) (run : UnitRun) (k : Track) (s : State) : State :=
  let u := s.unit t
  let m16 := 16 * (u.encoder - k.position).toNat
  let dt := (time - k.time).toNat
  let locked := decide (u.state = .locked)
  let c := classify run.pitch m16
  let advance := match locked, c with
    | true, .normal => 1
    | true, .oneMissing => 2
    | _, _ => pitchesIn run.pitch m16
  let e : EdgeReport := { advance := advance, interval := some dt }
  if c = .spurious then spuriousEdge t run s
  else if run.countLimit < run.count + advance then exhaustNumbering t s
  else
    let s1 := acceptEdge t time advance s
    match locked, c with
    | true, .normal => normalEdge t run m16 e s1
    | true, .oneMissing => missingEdge t run e s1
    | true, _ => breakEdge t run e s1
    | false, _ => reacquireEdge t run m16 e s1

/-- A forward PERF edge treated in the state of the unit; ignored in IDLE and once numbering is exhausted
(R45, R51, R52, R57, R60). -/
def forwardEdge (t : Transport) (time : Word32) (s : State) : State :=
  match (s.unit t).state, (s.unit t).run with
  | .idle, _ => s
  | _, none => s
  | .armed, some run => firstEdge t time run s
  | _, some run =>
    match run.track with
    | none => s
    | some k => if run.exhausted then s else measuredEdge t time run k s

/-- A PERF edge: the timestamp and the level of DIR are read, and a forward edge reaches the unit of the running part;
an edge under reverse is ignored (R45). -/
def perfEdge (t : Transport) (time : Word32) (dir : Sense) (s : State) : State :=
  let s1 := { s with timestamp := time }.setLine t { s.line t with dirLine := dir }
  match s.phase, (s1.line t).dirLine with
  | .running, .forward => forwardEdge t time s1
  | _, _ => s1

/-- An encoder step: one micrometre more or less, modulo 2^32 (R45). The position of a stopped part is working state
that its start sets to 0. -/
def encoderStep (t : Transport) (sense : Sense) (s : State) : State :=
  match s.phase with
  | .running =>
    let u := s.unit t
    s.setUnit t { u with encoder := match sense with
      | .forward => u.encoder + 1
      | .reverse => u.encoder - 1 }
  | _ => s

/-- The unit registers a pass: ARMED, LOCKED or REACQUIRE (R48). -/
def RegUnit.active (u : RegUnit) : Bool := u.state ≠ .idle

/-- BREAK going asserted: the latch and STOP in every state; a TEAR entry and the abort of a pass being registered;
FILM_BREAK in every state (R66). -/
def breakAsserted (t : Transport) (s : State) : State :=
  let s1 := s.setLine t { s.line t with breakLine := true }
  match s.phase with
  | .running =>
    let u := s1.unit t
    let s2 := s1.setUnit t { u with breakLatch := true }
    let s3 :=
      match u.active, u.run with
      | true, some run =>
        finishPass t (.aborted .filmBreak) false (raiseForPass t run.reel run.currentFrame .tear s2)
      | _, _ => s2
    raiseAlert .filmBreak ((s3.pass t).map (·.reel)) (some (.transport t)) s3
  | _ => s1

/-- DIR going from forward to reverse: a pass being registered is aborted (R68). -/
def reverseEdge (t : Transport) (s : State) : State :=
  let s1 := s.setLine t { s.line t with dirLine := .reverse }
  match s.phase with
  | .running => if (s1.unit t).active then finishPass t (.aborted .reversed) false s1 else s1
  | _ => s1

/-- PERF_EDGE (R52). -/
def execPerfEdge (t : Transport) (time : Word32) (dir : Sense) (s : State) : Host.Outcome State Fault Refusal :=
  done (perfEdge t time dir s)

/-- ENCODER_STEP (R45). -/
def execEncoderStep (t : Transport) (sense : Sense) (s : State) : Host.Outcome State Fault Refusal :=
  done (encoderStep t sense s)

/-- BREAK_ASSERTED (R66). -/
def execBreakAsserted (t : Transport) (s : State) : Host.Outcome State Fault Refusal := done (breakAsserted t s)

/-- REVERSE_EDGE (R68). -/
def execReverseEdge (t : Transport) (s : State) : Host.Outcome State Fault Refusal := done (reverseEdge t s)

/-! ### SET_SPEED and CLEAR_BREAK -/

/-- A request that acts on the transport paired with its port (R171). The role check admits P0 and P1 alone, so
another port does not come here. -/
def onTransport (p : Port) (s : State) (f : Transport → Answer) : Answer :=
  match pairedTransport p with
  | some t => f t
  | none => refuse .notPermitted s

/-- The body of SET_SPEED: set code, cap, output code (R63). -/
def speedBody (t : Transport) (s : State) : Bytes :=
  u8 (s.unit t).setCode ++ u8 (s.speedCap t) ++ u8 (s.speedCode t)

/-- SET_SPEED(code) (R63). -/
def setSpeedOwner (p : Port) (code : Nat) (s : State) : Answer :=
  onTransport p s (fun t =>
    let s' := s.setUnit t { s.unit t with setCode := min 7 code }
    ⟨if code ≤ 7 then .ok else .clamped, speedBody t s', s'⟩)

/-- The body of CLEAR_BREAK: latch, abort hold, STOP (R67). -/
def breakBody (t : Transport) (s : State) : Bytes :=
  flag (s.unit t).breakLatch ++ flag (s.unit t).abortHold ++ flag (s.unit t).stop

/-- CLEAR_BREAK, with the level of BREAK as it stands when the request is taken (R67). -/
def clearBreakOwner (p : Port) (breakNow : Bool) (s : State) : Answer :=
  onTransport p s (fun t =>
    let s1 := s.setLine t { s.line t with breakLine := breakNow }
    if (s1.line t).breakLine then refuse .breakActive s1
    else
      let s2 := s1.setUnit t { s1.unit t with breakLatch := false }
      ⟨.ok, breakBody t s2, s2⟩)

/-- SET_SPEED (R63). -/
def execSetSpeed (p : Port) (code : Nat) (s : State) : Host.Outcome State Fault Refusal :=
  done (request p .setSpeed (setSpeedOwner p code) s)

/-- CLEAR_BREAK (R67). -/
def execClearBreak (p : Port) (breakNow : Bool) (s : State) : Host.Outcome State Fault Refusal :=
  done (request p .clearBreak (clearBreakOwner p breakNow) s)

end Sys2Proof.Machine
end

