-- ==== Sys2Proof/Machine/Passes.lean ====
section
/-! DEFINITION. Pass requests and the verification walk (04 sections 4.2 and 4.6 to 4.9, 05 section 5.7). -/

namespace Sys2Proof.Machine

/-! ### START_PASS -/

/-- The first failed check of START_PASS with its result code; none when every check passes (R72). -/
def startCheck (t : Transport) (kind : PassKind) (f0 : Nat) (endFrame : Option Nat) (held : Option (Nat × Reel))
    (s : State) : Option (Nat × ResultCode) :=
  match held with
  | none => some (1, .notHolder)
  | some (_, r) =>
    if r.custody.code ≠ 5 then some (2, .wrongState)
    else if (s.pass t).isSome then some (3, .passActive)
    else if (s.unit t).breakLatch then some (4, .breakActive)
    else if cycleTime s.settings t = 0 then some (5, .wrongState)
    else if Config.lastFrame < f0 ∨ (r.frameCount = none ∧ f0 ≠ 0) ∨ (∃ n ∈ r.frameCount, n ≤ f0) then
      some (6, .outOfRange)
    else if ∃ e ∈ endFrame, Config.lastFrame < e ∨ e ≤ f0 then some (7, .outOfRange)
    else match kind with
      | .inspect => none
      | .graded =>
        if r.renumbering then some (8, .renumbering)
        else if r.gradeLocked = false then some (9, .wrongState)
        else if r.countConfirmed = false then some (10, .countUnconfirmed)
        else if r.blockingCount ≠ 0 then some (11, .blockingDefects)
        else none

/-- The fields of the unit at arming: the stored estimate, or 16N of the gauge when there is none, clamped to the
limits of the gauge (R47, R48, R49). -/
def armedRun (r : Reel) (f0 : Nat) : UnitRun where
  reel := r.id
  gauge := r.gauge
  f0 := f0
  pitch := clampPitch r.gauge (match r.pitch with
    | some g => g.estimate
    | none => 16 * r.gauge.nominal)
  track := none
  accepted := 0
  spurious := 0
  lastEdgeDamage := none
  lockRun := 0
  intervals := 0
  reacquired := false
  exhausted := false

/-- The pass record that START_PASS makes (R73). -/
def newPass (kind : PassKind) (r : Reel) (number f0 : Nat) (endFrame : Option Nat) : Pass where
  kind := kind
  reel := r.id
  number := number
  f0 := f0
  endFrame := endFrame
  state := .armed
  reason := none
  tail := none
  highest := none
  lastCaptured := none
  captured := 0
  missed := 0
  spurious := 0
  defectsRaised := 0
  misses := 0
  exhausted := false
  carriedMark := false
  walked := 0
  verified := 0
  frozenTrim := match kind with
    | .graded => some r.trim
    | .inspect => none

/-- The pass made: the reel's pass number advances, the record is made, and the unit is armed with its shrinkage
test (R49, R62, R73). -/
def startPass (t : Transport) (kind : PassKind) (i : Nat) (r : Reel) (f0 : Nat) (endFrame : Option Nat)
    (s : State) : State :=
  let n := satSucc 65535 r.passNumber
  let s1 := (s.putReel i { r with passNumber := n }).setPass t (some (newPass kind r n f0 endFrame))
  shrinkTest t (s1.setUnit t { s1.unit t with state := .armed, run := some (armedRun r f0) })

/-- The body of START_PASS: pass number, F0, pitch estimate, shrinkage, output speed code (R73). -/
def startBody (t : Transport) (r : Reel) (f0 : Nat) (s : State) : Bytes :=
  let p := (armedRun r f0).pitch
  u16 (satSucc 65535 r.passNumber) ++ u16 f0 ++ u32 p ++ leInt 2 (shrinkageOf r.gauge p) ++ u8 (s.speedCode t)

/-- START_PASS(kind, F0, end frame?) (R72, R73). -/
def startPassOwner (p : Port) (kind f0 endFrame : Nat) (s : State) : Answer :=
  match passKindOf kind with
  | none => refuse .badRequest s
  | some k =>
    onTransport p s (fun t =>
      match startCheck t k f0 (frameArg endFrame) (s.heldBy p) s, s.heldBy p with
      | some (n, code), _ => ⟨code, u8 n, s⟩
      | none, none => refuse .notHolder s
      | none, some (i, r) =>
        let s' := startPass t k i r f0 (frameArg endFrame) s
        ⟨.ok, startBody t r f0 s', s'⟩)

/-! ### END_PASS -/

/-- The body of END_PASS: the counters of the pass (R83). DEDUCED, log 9. -/
def countersBody (p : Pass) : Bytes :=
  u16 p.captured ++ u16 p.missed ++ u16 p.spurious ++ u16 p.defectsRaised

/-- END_PASS(tail) (R83). -/
def endPassOwner (p : Port) (tail : Nat) (s : State) : Answer :=
  match yesNo tail with
  | none => refuse .badRequest s
  | some yes =>
    onTransport p s (fun t =>
      match s.pass t with
      | none => refuse .wrongState s
      | some pass =>
        if pass.state = .armed ∨ pass.state = .running then
          ⟨.ok, countersBody pass, finishPass t (if yes then .complete else .stopped) yes s⟩
        else refuse .wrongState s)

/-! ### CLOSE_PASS and verification -/

/-- The pitch figures of the pass written to the reel record, with SHRUNK recomputed, when the unit accepted 64
edges or more (R87). -/
def writeFigures (t : Transport) (s : State) : State :=
  match (s.unit t).run with
  | none => s
  | some run =>
    if run.accepted < 64 then s
    else match s.findReel run.reel with
      | none => s
      | some (i, r) =>
        let figure := shrinkageOf run.gauge run.pitch
        s.putReel i { r with
          pitch := some ⟨run.pitch, figure⟩
          shrunk := (s.settings.shrinkLimit : Int) ≤ figure }

/-- The measured frame count of a closed inspect pass, when it measured one (R88). -/
def measuredCount (p : Pass) : Option Nat :=
  if p.f0 = 0 ∧ p.tail = some true then p.highest.map (· + 1) else none

/-- Steps 1 and 2 of the close of a COMPLETE INSPECT pass: the inspect-pass count, and the frame count with its
confirmation; FRAME_COUNT_CHANGED names the reel and the transport (R88, R152). -/
def inspectClose (t : Transport) (p : Pass) (s : State) : State :=
  match s.findReel p.reel with
  | none => s
  | some (i, r) =>
    let r1 := { r with inspectCount := satSucc 255 r.inspectCount }
    match measuredCount p with
    | none => s.putReel i r1
    | some n =>
      let r2 := { r1 with frameCount := some n, countConfirmed := r.scenes.all (fun c => c.start < n) }
      if ∃ m ∈ r.frameCount, m ≠ n then
        (raiseAlert .frameCountChanged (some r.id) (some (.transport t)) s).putReel i r2
      else s.putReel i r2

/-- The completion of a close: graded-done where due, the abort hold cleared, the place freed (R89). -/
def completeClose (t : Transport) (p : Pass) (s : State) : State :=
  let s1 :=
    if p.kind = .graded ∧ p.reason = some .complete then
      match s.findReel p.reel with
      | some (i, r) => s.putReel i { r with gradedDone := true }
      | none => s
    else s
  (s1.setUnit t { s1.unit t with abortHold := false }).setPass t none

/-- A stretch of the verification of a CLOSING pass: the walk goes on from where it stands in the reel's list, and
when it passes the last entry the close is completed with its CLOSED notice (R89, R109); otherwise it stands where the
stretch ends, and the pass stays CLOSING (R110). -/
def verifyStretch (t : Transport) (p : Pass) (entries : Option Nat) (s : State) : State :=
  match s.findReel p.reel with
  | none => completeClose t p s
  | some (i, r) =>
    let ahead := r.defects.drop p.walked
    let n := entries.getD ahead.length
    let passed := ahead.take n
    let count := p.verified + verifiedCount p.f0 p.highest passed
    let s1 := s.putReel i (r.withDefects
      (r.defects.take p.walked ++ passed.map (verifyEntry p.f0 p.highest) ++ ahead.drop n))
    if ahead.length ≤ n then
      notify (pairedPort t) (.passClosed t { p with walked := 0, verified := 0 } count r.frameCount r.countConfirmed)
        (completeClose t p s1)
    else s1.setPass t (some { p with walked := p.walked + n, verified := count })

/-- The verification completes at the hand-off: an empty range or an empty list (R109). DEDUCED, log 15. -/
def verifiesAtOnce (p : Pass) (s : State) : Bool := p.highest.isNone || (s.defectsOf p.reel).isEmpty

/-- CLOSE_PASS of an ENDED pass (R87, R88, R89). -/
def closeEnded (t : Transport) (p : Pass) (s : State) : Answer :=
  let s1 := writeFigures t s
  if p.kind = .inspect ∧ p.reason = some .complete then
    let p' := { p with state := .closing, walked := 0, verified := 0 }
    let s2 := (inspectClose t p s1).setPass t (some p')
    ⟨.accepted, [], if verifiesAtOnce p' s2 then verifyStretch t p' none s2 else s2⟩
  else ⟨.ok, [], completeClose t p s1⟩

/-- CLOSE_PASS (R87). -/
def closePassOwner (p : Port) (s : State) : Answer :=
  onTransport p s (fun t =>
    match s.pass t with
    | none => refuse .wrongState s
    | some pass =>
      match pass.state with
      | .armed => refuse .wrongState s
      | .running => refuse .wrongState s
      | .closing => refuse .passActive s
      | .ended => closeEnded t pass s)

/-- A stretch of the verification walk of a transport; with no pass in CLOSING, or with the part stopped, there is
none (R109, R110). -/
def verificationWalk (w : WalkRun) (s : State) : State :=
  match s.phase, s.pass w.transport with
  | .running, some p => if p.state = .closing then verifyStretch w.transport p w.entries s else s
  | _, _ => s

/-! ### READ_PASS -/

/-- The fields of a pass record in the order of R70, absent fields marked absent (R90, R180). The consecutive-miss
counter is sent in 1 byte: DEDUCED, log 12. -/
def passFields (p : Pass) : Bytes :=
  u8 p.kind.code ++ u32 p.reel ++ u16 p.number ++ u16 p.f0 ++ u16Absent p.endFrame ++ u8 p.state.code ++
    u8Absent (p.reason.map EndReason.code) ++ u8Absent ((p.reason.bind EndReason.cause).map AbortCause.code) ++
    u8Absent (p.tail.map Bool.toNat) ++ u16Absent p.highest ++ u16Absent p.lastCaptured ++ u16 p.captured ++
    u16 p.missed ++ u16 p.spurious ++ u16 p.defectsRaised ++ u8 p.misses ++ flag p.exhausted ++
    trimBytes (p.frozenTrim.getD ⟨0, 0, 0⟩)

/-- The same fields when the place is empty: every field at its absent value, 0 for a field that has none, as the
reel ID and the pass number (R180). DEDUCED, log 11. -/
def noPassFields : Bytes :=
  u8 255 ++ u32 0 ++ u16 0 ++ u16 65535 ++ u16 65535 ++ u8 255 ++ u8 255 ++ u8 255 ++ u8 255 ++
    u16 65535 ++ u16 65535 ++ u16 65535 ++ u16 65535 ++ u16 65535 ++ u16 65535 ++ u8 0 ++ u8 0 ++
    trimBytes ⟨0, 0, 0⟩

/-- The fields of the registration unit in the order of R90; figures that are absent are sent as 0 (R180). -/
def unitFields (t : Transport) (s : State) : Bytes :=
  let u := s.unit t
  let figures := match u.run with
    | some r => u32 r.pitch ++ leInt 2 (shrinkageOf r.gauge r.pitch) ++ u32 r.count ++ u32 r.accepted
    | none => u32 0 ++ u16 0 ++ u32 0 ++ u32 0
  u8 u.state.code ++ figures ++ flag u.breakLatch ++ flag u.abortHold ++ u8 u.setCode ++ u8 (s.speedCap t) ++
    u8 (s.speedCode t)

/-- The body of READ_PASS (R90, R180). -/
def passBody (t : Transport) (s : State) : Bytes :=
  match s.pass t with
  | some p => u8 1 ++ passFields p ++ unitFields t s
  | none => u8 0 ++ noPassFields ++ unitFields t s

/-- READ_PASS(transport) (R90). -/
def readPassOwner (transport : Nat) (s : State) : Answer :=
  match transportOf transport with
  | none => refuse .badRequest s
  | some t => ⟨.ok, passBody t s, s⟩

/-! ### The commands -/

/-- START_PASS (R73). -/
def execStartPass (p : Port) (kind f0 endFrame : Nat) (s : State) : Host.Outcome State Fault Refusal :=
  done (request p .startPass (startPassOwner p kind f0 endFrame) s)

/-- END_PASS (R83). -/
def execEndPass (p : Port) (tail : Nat) (s : State) : Host.Outcome State Fault Refusal :=
  done (request p .endPass (endPassOwner p tail) s)

/-- CLOSE_PASS (R87). -/
def execClosePass (p : Port) (s : State) : Host.Outcome State Fault Refusal :=
  done (request p .closePass (closePassOwner p) s)

/-- VERIFICATION_WALK (R109, R110). -/
def execVerificationWalk (w : WalkRun) (s : State) : Host.Outcome State Fault Refusal :=
  done (verificationWalk w s)

/-- READ_PASS (R90). -/
def execReadPass (p : Port) (transport : Nat) (s : State) : Host.Outcome State Fault Refusal :=
  done (request p .readPass (readPassOwner transport) s)

end Sys2Proof.Machine
end

