-- ==== Sys2Proof/Machine/DefectRequests.lean ====
section
/-! DEFINITION. The station requests of the defect register, and MARK_SPLICE (05 sections 5.6 and 5.8, 06 section
6.2). -/

namespace Sys2Proof.Machine

/-! ### Reports -/

/-- Frame `f` cannot be named in a report on the reel: its frame count is present and `f` is at or above it
(R104, R115). -/
def Reel.beyondCount (r : Reel) (f : Nat) : Bool :=
  match r.frameCount with
  | some n => n ≤ f
  | none => false

/-- The open pass that a report is taken for: the pass on the transport paired with the port, when it names the reel
and is RUNNING or ENDED (R86, R104). -/
def reportPass (p : Port) (reel : Nat) (s : State) : Option (Transport × Pass) :=
  match pairedTransport p with
  | none => none
  | some t =>
    match s.pass t with
    | none => none
    | some pass =>
      if pass.reel = reel ∧ (pass.state = .running ∨ pass.state = .ended) then some (t, pass) else none

/-- The body of an OK report: the outcome and the entry number (R101, R104). -/
def outcomeBody (o : DetectOutcome) : Bytes := u8 o.code ++ u16 (o.number.getD 0)

/-- The answer to a station's detection: OK with the outcome and entry number, or POOL_FULL when the detection is
lost (R99, R104, R115); `count` is what the outcome does to the counters of a pass (R86). DEDUCED, log 10. -/
def detectionAnswer (x : Detection) (count : State × DetectOutcome → State) (s : State) : Answer :=
  match (raiseDetection x s).2 with
  | .noEntry => refuse .poolFull s
  | o => ⟨.ok, outcomeBody o, count (raiseDetection x s)⟩

/-- The detection of a report (R104). -/
def reportDetection (p : Port) (reel f span : Nat) (kind : DefectKind) (severity : Option Severity)
    (note : Option Nat) (s : State) : Detection where
  reel := reel
  f := f
  span := span
  kind := kind
  severity := severity.getD kind.severity
  pass := ((reportPass p reel s).map (fun e => e.2.number)).getD 0
  origin := .station p
  note := note

/-- A new entry of a report of a pass is counted for that pass (R86). -/
def countReport (p : Port) (reel : Nat) (s : State) (e : State × DetectOutcome) : State :=
  match reportPass p reel s with
  | some (t, _) => countRaised t e
  | none => e.1

/-- The kinds that a station may report: check 3 of R104. -/
def DefectKind.reportable : DefectKind → Bool
  | .missingPerf => false
  | .edgeDamage => false
  | .pitchBreak => false
  | .missedCapture => false
  | .splice => false
  | _ => true

/-- Check 4 of R104. -/
def spanOutside (r : Reel) (f span : Nat) : Bool :=
  span = 0 || 255 < span || Config.lastFrame < f + span - 1 || r.beyondCount f

/-- REPORT_DEFECT(reel, f, span, kind, severity?, note?) (R104). -/
def reportDefectOwner (p : Port) (reel f span kind severity noteGiven note : Nat) (s : State) : Answer :=
  match defectKindOf kind, severityOf severity, noteOf noteGiven note with
  | some k, some sev, some nt =>
    withFreeReel reel s (fun _ r =>
      if r.custody.holder ≠ some p then refuse .notHolder s
      else if s.anyPassOn r.id (fun q => q.state = .closing) then refuse .passActive s
      else if k.reportable = false then refuse .notPermitted s
      else if spanOutside r f span then refuse .outOfRange s
      else detectionAnswer (reportDetection p reel f span k sev nt s) (countReport p reel s) s)
  | _, _, _ => refuse .badRequest s

/-- The detection of MARK_SPLICE (R115). -/
def spliceDetection (p : Port) (reel f : Nat) : Detection where
  reel := reel
  f := f
  span := 1
  kind := .splice
  severity := .cosmetic
  pass := 0
  origin := .station p
  note := none

/-- MARK_SPLICE(reel, f) (R115). -/
def markSpliceOwner (p : Port) (reel f : Nat) (s : State) : Answer :=
  withFreeReel reel s (fun _ r =>
    if r.custody.holder ≠ some p then refuse .notHolder s
    else if Config.lastFrame < f ∨ r.beyondCount f then refuse .outOfRange s
    else detectionAnswer (spliceDetection p reel f) (·.1) s)

/-! ### Requests that name an entry -/

/-- The reel on whose list an entry number stands, with the entry (R92). -/
def State.findEntry (s : State) (n : Nat) : Option (Nat × Reel × Defect) :=
  s.reels.findSome? (fun e => (e.2.defects.find? (fun d => d.number = n)).map (fun d => (e.1, e.2, d)))

/-- A request that names an entry: OUT_OF_RANGE, NO_SUCH_ENTRY, then RENUMBERING (R92, R103). -/
def withEntry (n : Nat) (s : State) (f : Nat → Reel → Defect → Answer) : Answer :=
  if Config.defectPlaces ≤ n then refuse .outOfRange s
  else match s.findEntry n with
    | none => refuse .noSuchEntry s
    | some (i, r, d) => if r.renumbering then refuse .renumbering s else f i r d

/-- The state of entry `n` on a list changed to `v`. -/
def setEntryState (n : Nat) (v : DefectState) (ds : List Defect) : List Defect :=
  ds.map (fun d => if d.number = n then { d with state := v } else d)

/-- Entry `n` of the reel in place `i` brought to state `v`, the reel's counts with it (R102), and the reply OK. -/
def entryTo (n : Nat) (v : DefectState) (i : Nat) (r : Reel) (s : State) : Answer :=
  ⟨.ok, [], s.putReel i (r.withDefects (setEntryState n v r.defects))⟩

/-- CLAIM(entry) (R105). -/
def claimOwner (p : Port) (n : Nat) (s : State) : Answer :=
  withEntry n s (fun i r d =>
    if r.custody.holder ≠ some p then refuse .notHolder s
    else if d.state = .opened then entryTo n (.claimed p) i r s
    else refuse .wrongState s)

/-- The end of a claim by its claimant, the entry going to state `v` (R106). -/
def endClaim (p : Port) (n : Nat) (v : DefectState) (s : State) : Answer :=
  withEntry n s (fun i r d =>
    match d.state with
    | .claimed q => if q = p then entryTo n v i r s else refuse .notHolder s
    | _ => refuse .wrongState s)

/-- UNCLAIM(entry) (R106). -/
def unclaimOwner (p : Port) (n : Nat) (s : State) : Answer := endClaim p n .opened s

/-- REPORT_REPAIR(entry) (R106). -/
def reportRepairOwner (p : Port) (n : Nat) (s : State) : Answer := endClaim p n .repaired s

/-- DEFER(entry) (R108). -/
def deferOwner (n : Nat) (s : State) : Answer :=
  withEntry n s (fun i r d =>
    if d.state = .opened ∨ d.state = .repaired then entryTo n .deferred i r s
    else refuse .wrongState s)

/-! ### Reading and purging -/

/-- The defect item of READ_DEFECTS (R182). -/
def defectItem (reel : Nat) (d : Defect) : Bytes :=
  u16 d.number ++ u32 reel ++ u16 d.first ++ u8 d.span ++ u8 d.kind.code ++ u8 d.state.code ++
    u8 (flagBits [d.severity = .blocking, d.generation, d.note.isSome]) ++ u8 d.origin.code ++
    u8Absent (d.state.claimant.map portCode) ++ u8 d.attempts ++ u16 d.pass ++ u16 (d.note.getD 0)

/-- The body of READ_DEFECTS (R111, R182). -/
def defectsBody (r : Reel) (index count : Nat) : Bytes :=
  u16 r.defects.length ++ u16 r.openCount ++ u16 r.blockingCount ++
    u16 (nextPosition r.defects.length index count 26) ++
    (listed r.defects index count 26).flatMap (defectItem r.id)

/-- READ_DEFECTS(reel, from index, count) (R111). -/
def readDefectsOwner (reel index count : Nat) (s : State) : Answer :=
  withFreeReel reel s (fun _ r =>
    if Config.reelDefects ≤ index ∨ count = 0 ∨ Config.reelDefects < count then refuse .outOfRange s
    else ⟨.ok, defectsBody r index count, s⟩)

/-- The entry is one that PURGE_VERIFIED frees (R112). -/
def Defect.finished (d : Defect) : Bool := d.state = .verified || d.state = .removed

/-- The entries of a reel brought to a shorter list, and DEFECT_POOL_FULL tested when a place was freed
(R100, R112). -/
def freeEntries (i : Nat) (r : Reel) (kept : List Defect) (s : State) : State :=
  if kept.length = r.defects.length then s
  else testDefectPool (s.putReel i { r with defects := kept })

/-- PURGE_VERIFIED(reel) (R112). -/
def purgeVerifiedOwner (reel : Nat) (s : State) : Answer :=
  withFreeReel reel s (fun i r =>
    if s.anyPassOn r.id (fun q => q.state = .closing) then refuse .passActive s
    else
      ⟨.ok, u16 (r.defects.filter Defect.finished).length,
        freeEntries i r (r.defects.filter (fun d => !d.finished)) s⟩)

/-! ### The commands -/

/-- REPORT_DEFECT (R104). -/
def execReportDefect (p : Port) (reel f span kind severity noteGiven note : Nat) (s : State) :
    Host.Outcome State Fault Refusal :=
  done (request p .reportDefect (reportDefectOwner p reel f span kind severity noteGiven note) s)

/-- CLAIM (R105). -/
def execClaim (p : Port) (entry : Nat) (s : State) : Host.Outcome State Fault Refusal :=
  done (request p .claim (claimOwner p entry) s)

/-- UNCLAIM (R106). -/
def execUnclaim (p : Port) (entry : Nat) (s : State) : Host.Outcome State Fault Refusal :=
  done (request p .unclaim (unclaimOwner p entry) s)

/-- REPORT_REPAIR (R106). -/
def execReportRepair (p : Port) (entry : Nat) (s : State) : Host.Outcome State Fault Refusal :=
  done (request p .reportRepair (reportRepairOwner p entry) s)

/-- DEFER (R108). -/
def execDeferEntry (p : Port) (entry : Nat) (s : State) : Host.Outcome State Fault Refusal :=
  done (request p .deferEntry (deferOwner entry) s)

/-- READ_DEFECTS (R111). -/
def execReadDefects (p : Port) (reel index count : Nat) (s : State) : Host.Outcome State Fault Refusal :=
  done (request p .readDefects (readDefectsOwner reel index count) s)

/-- PURGE_VERIFIED (R112). -/
def execPurgeVerified (p : Port) (reel : Nat) (s : State) : Host.Outcome State Fault Refusal :=
  done (request p .purgeVerified (purgeVerifiedOwner reel) s)

/-- MARK_SPLICE (R115). -/
def execMarkSplice (p : Port) (reel f : Nat) (s : State) : Host.Outcome State Fault Refusal :=
  done (request p .markSplice (markSpliceOwner p reel f) s)

end Sys2Proof.Machine
end

