-- ==== Sys2Proof/Machine/Reels.lean ====
section
/-! DEFINITION. Enrolment and retirement of reels, and the reading of the reel table (01 sections 1.5 and
1.12). -/

namespace Sys2Proof.Machine

/-! ### Enrolment and retirement -/

/-- The record that ENROL makes (R5). -/
def newReel (id : Nat) (gauge : Gauge) (zone slot : Nat) (home : Bool) : Reel where
  id := id
  gauge := gauge
  zone := zone
  home := if home then some slot else none
  current := some slot
  previous := none
  rack := none
  custody := .shelved
  waiters := []
  lapsed := none
  exposure := 0
  exposureSeconds := 0
  overexposed := false
  frameCount := none
  countConfirmed := false
  pitch := none
  shrunk := false
  openCount := 0
  blockingCount := 0
  sceneCount := 0
  trim := ⟨0, 0, 0⟩
  gradeLocked := false
  gradedDone := false
  passNumber := 0
  inspectCount := 0
  lastOrder := 0
  renumbering := false
  generation := false
  defects := []
  scenes := []

/-- ENROL(reel, slot, gauge, home): the checks of R5 in order, then the record in the lowest empty place. The coding of
`home` is a DESIGN CHOICE, log 31. -/
def enrolOwner (reel slot gauge home : Nat) (s : State) : Answer :=
  if reel = 0 then refuse .outOfRange s
  else if Config.slotPlaces ≤ slot then refuse .outOfRange s
  else match gaugeOf gauge, yesNo home with
    | some g, some h =>
      if (s.findReel reel).isSome then refuse .duplicate s
      else match zoneOf s.settings slot with
        | none => refuse .wrongState s
        | some z =>
          if s.slotAt slot ≠ .occupied reel then refuse .wrongState s
          else match lowestFree Config.reelPlaces (s.reels.map (·.1)) with
            | none => refuse .tableFull s
            | some i => custodyOk i (s.putReel i (newReel reel g z slot h))
    | _, _ => refuse .badRequest s

/-- The scenes of the reel in place `i` freed, and SCENE_POOL_FULL tested when a place was freed (R130, R132). -/
def freeScenes (i : Nat) (r : Reel) (s : State) : State :=
  if r.scenes = [] then s else testScenePool (s.putReel i { r with scenes := [], sceneCount := 0 })

/-- RETIRE(reel): the purge of entries, then of scenes, the held edits abandoned, the place emptied (R6). DEDUCED,
log 9. -/
def retireOwner (reel : Nat) (s : State) : Answer :=
  withFreeReel reel s (fun i r =>
    match r.custody with
    | .shelved =>
      if r.openCount ≠ 0 then refuse .openDefects s
      else
        let s1 := freeEntries i r [] s
        let s2 := freeScenes i { r with defects := [] } s1
        let s3 := abandonFor r.id .retire s2
        custodyOk i { s3 with reels := tableErase s3.reels i }
    | _ => refuse .wrongState s)

/-! ### Reading the table -/

/-- The fault direction of a custody state (R9). -/
def Custody.faultDirection : Custody → Option Direction
  | .moveFault d => some d
  | _ => none

/-- The resting time left in whole minutes, rounded up; 0 when the timer does not run (R10, R182). -/
def Custody.restingMinutes : Custody → Nat
  | .resting w => (w + 59) / 60
  | _ => 0

/-- The threading time left in seconds; 0 when the timer does not run (R15, R182). -/
def Custody.threadingSeconds : Custody → Nat
  | .granted _ w => w
  | _ => 0

/-- The wait queue as three bytes, 255 for each empty place (R182). -/
def waitersBytes (q : List Port) : Bytes :=
  (List.range Config.waitPlaces).flatMap (fun j => u8Absent ((q[j]?).map portCode))

/-- The reel record as READ_REEL gives it, in 50 bytes (R21, R182). -/
def reelBytes (i : Nat) (r : Reel) : Bytes :=
  u8 i ++ u32 r.id ++ u8 r.gauge.code ++ u8 r.zone ++
    u16Absent r.home ++ u16Absent r.current ++ u16Absent r.previous ++
    u8Absent r.rack ++ u8 r.custody.code ++ u8Absent (r.custody.faultDirection.map Direction.code) ++
    u8Absent (r.custody.holder.map portCode) ++ waitersBytes r.waiters ++
    u8Absent (r.lapsed.map portCode) ++ u8 r.custody.restingMinutes ++
    u16 r.custody.threadingSeconds ++ u16 r.exposure ++ u8 r.exposureSeconds ++
    u8 (flagBits [r.overexposed, r.countConfirmed, r.shrunk, r.gradeLocked, r.gradedDone, r.renumbering,
      r.generation]) ++
    u8 (flagBits [r.frameCount.isSome, r.pitch.isSome]) ++ u16 (r.frameCount.getD 0) ++
    u32 ((r.pitch.map (·.estimate)).getD 0) ++ leInt 2 ((r.pitch.map (·.shrinkage)).getD 0) ++
    u16 r.openCount ++ u16 r.blockingCount ++ u16 r.sceneCount ++ trimBytes r.trim ++
    u16 r.passNumber ++ u8 r.inspectCount ++ u8 r.lastOrder

/-- READ_REEL(reel) (R21). -/
def readReelOwner (reel : Nat) (s : State) : Answer :=
  withReel reel s (fun i r => ⟨.ok, reelBytes i r, s⟩)

/-- The reel list item of LIST_REELS (R182). -/
def reelItem (e : Nat × Reel) : Bytes :=
  u8 e.1 ++ u32 e.2.id ++ u8 e.2.custody.code ++ u8Absent (e.2.custody.holder.map portCode) ++
    u8 e.2.waiters.length ++ u8 (flagBits [e.2.overexposed, e.2.shrunk, e.2.renumbering])

/-- The records that LIST_REELS lists: the occupied places at or above an index, up to a count (R22). -/
def reelsListed (index count : Nat) (s : State) : List (Nat × Reel) :=
  (s.reels.filter (fun e => index ≤ e.1)).take count

/-- The index at which a further LIST_REELS should begin: the place after the record that filled the count, else 48
(R22). -/
def nextReelIndex (count : Nat) (es : List (Nat × Reel)) : Nat :=
  if es.length < count then Config.reelPlaces
  else ((es.getLast?).map (fun e => e.1 + 1)).getD Config.reelPlaces

/-- The body of LIST_REELS (R22, R182). -/
def reelsBody (index count : Nat) (s : State) : Bytes :=
  u8 (nextReelIndex count (reelsListed index count s)) ++ (reelsListed index count s).flatMap reelItem

/-- LIST_REELS(from index, count) (R22). -/
def listReelsOwner (index count : Nat) (s : State) : Answer :=
  if Config.reelPlaces ≤ index ∨ count = 0 ∨ Config.reelPlaces < count then refuse .outOfRange s
  else ⟨.ok, reelsBody index count s, s⟩

/-! ### The commands -/

/-- ENROL (R5). -/
def execEnrol (p : Port) (reel slot gauge home : Nat) (s : State) : Host.Outcome State Fault Refusal :=
  done (request p .enrol (enrolOwner reel slot gauge home) s)

/-- RETIRE (R6). -/
def execRetire (p : Port) (reel : Nat) (s : State) : Host.Outcome State Fault Refusal :=
  done (request p .retire (retireOwner reel) s)

/-- READ_REEL (R21). -/
def execReadReel (p : Port) (reel : Nat) (s : State) : Host.Outcome State Fault Refusal :=
  done (request p .readReel (readReelOwner reel) s)

/-- LIST_REELS (R22). -/
def execListReels (p : Port) (index count : Nat) (s : State) : Host.Outcome State Fault Refusal :=
  done (request p .listReels (listReelsOwner index count) s)

end Sys2Proof.Machine
end

