-- ==== Sys2Proof/Machine/Renumber.lean ====
section
/-! DEFINITION. Frame removal: the acceptance of REMOVE_FRAMES and the walks that renumber a reel (06 sections 6.3
to 6.8). The last frame removed, called g in chapter 6, is `f + n - 1`. -/

namespace Sys2Proof.Machine

/-! ### Entries -/

/-- The new first frame of an entry that was REMOVED before the walk: its first frame moved as a single frame
(R120). -/
def movedFrame (f n a : Nat) : Nat := if f + n - 1 < a then a - n else if f ≤ a then f else a

/-- An entry adjusted to the removal of frames `f` to `f + n - 1`, its generation bit set to the target in the same
change (R119, R120). -/
def adjustDefect (f n : Nat) (target : Bool) (d : Defect) : Defect :=
  let g := f + n - 1
  let d' := { d with generation := target }
  if d.state = .removed then { d' with first := movedFrame f n d.first }
  else if d.last < f then d'
  else if g < d.first then { d' with first := d.first - n }
  else if f ≤ d.first then
    if d.last ≤ g then { d' with first := f, state := .removed }
    else { d' with first := f, span := d.last - g }
  else if d.last ≤ g then { d' with span := f - d.first }
  else { d' with span := d.span - n }

/-- The defect walk on a reel's list: each entry that does not carry the target is adjusted in its place
(R119, R120, R121). -/
def walkDefects (w : Renumber) (ds : List Defect) : List Defect :=
  ds.map (fun d => if d.generation = w.target then d else adjustDefect w.f w.n w.target d)

/-! ### Scenes -/

/-- The scene would start at f after the cut: it does not carry the target and starts in [f, g + 1] (R122). -/
def collides (w : Renumber) (c : Scene) : Bool :=
  c.generation ≠ w.target && w.f ≤ c.start && c.start ≤ w.f + w.n

/-- The greatest start frame among the colliding scenes, which is kept (R122). -/
def keptStart (w : Renumber) (cs : List Scene) : Nat := ((cs.filter (collides w)).map (·.start)).foldl max 0

/-- The first pass: every colliding scene but the one kept is deleted (R122). -/
def deleteCollisions (w : Renumber) (cs : List Scene) : List Scene :=
  cs.filter (fun c => !(collides w c) || c.start = keptStart w cs)

/-- The second pass on one scene, its generation bit set to the target in the same change (R122). -/
def moveScene (w : Renumber) (c : Scene) : Scene :=
  if c.generation = w.target then c
  else
    let c' := { c with generation := w.target }
    if c.start < w.f then c'
    else if c.start ≤ w.f + w.n then { c' with start := w.f }
    else { c' with start := c.start - w.n }

/-- Every fade but the last clamped to the room its scene has (R123). -/
def clampFades : List Scene → List Scene
  | [] => []
  | [c] => [c]
  | c :: n :: cs => { c with fade := min c.fade (n.start - c.start) } :: clampFades (n :: cs)

/-- The scene walk on a reel's list (R122, R123). -/
def walkScenes (w : Renumber) (cs : List Scene) : List Scene :=
  clampFades ((deleteCollisions w cs).map (moveScene w))

/-! ### The reel record -/

/-- The reel record after the defect walk; its counts wait for the completion (R121). -/
def Reel.walkedDefects (w : Renumber) (r : Reel) : Reel := { r with defects := walkDefects w r.defects }

/-- A reel record with its scene list changed, its scene count less by one for each scene deleted (R122). -/
def Reel.withScenes (r : Reel) (cs : List Scene) : Reel :=
  { r with scenes := cs, sceneCount := r.sceneCount - (r.scenes.length - cs.length) }

/-- The reel record after the scene walk (R122, R123). -/
def Reel.walkedScenes (w : Renumber) (r : Reel) : Reel := r.withScenes (walkScenes w r.scenes)

/-- The reel update, passed over when the record carries the target (R124). -/
def Reel.updated (w : Renumber) (r : Reel) : Reel :=
  if r.generation = w.target then r
  else
    { r with
      frameCount := r.frameCount.map (· - w.n)
      countConfirmed := false
      gradedDone := false
      sceneCount := r.scenes.length
      gradeLocked := false
      generation := w.target }

/-- The completion on the reel record: both counts counted again and RENUMBERING cleared (R125). -/
def Reel.completed (r : Reel) : Reel := { r.withDefects r.defects with renumbering := false }

/-- The whole renumbering of a reel record, as start-up finishes it (R119, R128). -/
def Reel.renumbered (w : Renumber) (r : Reel) : Reel :=
  (((r.walkedDefects w).walkedScenes w).updated w).completed

/-- The scenes of a list that `doomed` names, the first `n` of them deleted. -/
def deleteFirst (doomed : Scene → Bool) : Nat → List Scene → List Scene
  | 0, cs => cs
  | _, [] => []
  | n + 1, c :: cs => if doomed c then deleteFirst doomed n cs else c :: deleteFirst doomed (n + 1) cs

/-- A reel record whose resumed renumbering has come to a stage (R119 to R125, R178). -/
def Reel.resumedTo (w : Renumber) (k : ResumeStage) (r : Reel) : Reel :=
  let r1 := r.walkedDefects w
  let kept := deleteCollisions w r.scenes
  match k with
  | .entries n => { r with defects := walkDefects w (r.defects.take n) ++ r.defects.drop n }
  | .deletions n =>
    r1.withScenes (deleteFirst (fun c => collides w c && c.start ≠ keptStart w r.scenes) n r.scenes)
  | .moves n => r1.withScenes ((kept.take n).map (moveScene w) ++ kept.drop n)
  | .fades n => r1.withScenes ((walkScenes w r.scenes).take n ++ (kept.map (moveScene w)).drop n)
  | .updated => (r1.walkedScenes w).updated w

/-! ### The request -/

/-- The acceptance of a removal on the reel in place `i` (R118). -/
def acceptRemoval (p : Port) (i : Nat) (r : Reel) (f n : Nat) (s : State) : State :=
  abandonFor r.id .removeFrames
    { s.putReel i { r with renumbering := true } with
      pendingRenumber := some { reel := r.id, f := f, n := n, target := !r.generation }
      renumberWork := some { stage := .defectWalk, bench := p } }

/-- REMOVE_FRAMES(reel, f, n): the checks of R117 in order, then the acceptance. -/
def removeFramesOwner (p : Port) (reel f n : Nat) (s : State) : Answer :=
  withFreeReel reel s (fun i r =>
    if r.custody.holder ≠ some p then refuse .notHolder s
    else if r.custody ≠ .held p then refuse .wrongState s
    else match s.pendingRenumber with
      | some w => ⟨.renumbering, u32 w.reel, s⟩
      | none =>
        if n = 0 ∨ 64 < n then refuse .outOfRange s
        else if r.countConfirmed = false then refuse .countUnconfirmed s
        else match r.frameCount with
          | none => refuse .outOfRange s
          | some c =>
            if c < f + n then refuse .outOfRange s
            else ⟨.accepted, u16 f ++ u16 n ++ u16 (c - n), acceptRemoval p i r f n s⟩)

/-! ### The walks -/

/-- The renumbering at work in the running part, when it has come to `stage`: its pending record, its bench and the
record index and record of its reel. -/
def renumberAt (stage : RenumberStage) (s : State) : Option (Renumber × Port × Nat × Reel) :=
  match s.phase, s.pendingRenumber, s.renumberWork with
  | .running, some w, some k =>
    if k.stage = stage then (s.findReel w.reel).map (fun e => (w, k.bench, e.1, e.2)) else none
  | _, _, _ => none

/-- The defect walk, after which the scene walk begins; nothing when no renumbering has come to it (R119, R120). -/
def defectWalk (s : State) : State :=
  match renumberAt .defectWalk s with
  | none => s
  | some (w, bench, i, r) =>
    { s.putReel i (r.walkedDefects w) with renumberWork := some { stage := .sceneWalk, bench := bench } }

/-- GRADE_UNLOCKED to P4 when the reel update clears a set flag (R124). -/
def tellUnlocked (w : Renumber) (r : Reel) (s : State) : State :=
  if r.generation ≠ w.target ∧ r.gradeLocked = true then notify .p4 (.gradeUnlocked r.id) s else s

/-- The scene walk with its pool test, then the reel update and the completion with RENUMBER_DONE (R119, R122 to
R125). -/
def sceneWalk (s : State) : State :=
  match renumberAt .sceneWalk s with
  | none => s
  | some (w, bench, i, r) =>
    let r1 := r.walkedScenes w
    let s1 := s.putReel i r1
    let s2 := if (deleteCollisions w r.scenes).length < r.scenes.length then testScenePool s1 else s1
    let r2 := (r1.updated w).completed
    let s3 := tellUnlocked w r1 (s2.putReel i r2)
    notify bench (.renumberDone r.id (r2.frameCount.getD 0))
      { s3 with pendingRenumber := none, renumberWork := none }

/-- The resumption of a pending renumbering as far as a stage (R128, R178). -/
def resumeTo (k : ResumeStage) (s : State) : State :=
  match s.pendingRenumber with
  | none => s
  | some w =>
    match s.findReel w.reel with
    | some (i, r) => s.putReel i (r.resumedTo w k)
    | none => s

/-- The pending renumbering finished at start-up, with no notice (R128). DEDUCED, log 21. -/
def resumeRenumber (s : State) : State :=
  match s.pendingRenumber with
  | none => s
  | some w =>
    let s1 := match s.findReel w.reel with
      | some (i, r) => s.putReel i (r.renumbered w)
      | none => s
    { s1 with pendingRenumber := none, renumberWork := none }

/-! ### The commands -/

/-- REMOVE_FRAMES (R117). -/
def execRemoveFrames (p : Port) (reel f n : Nat) (s : State) : Host.Outcome State Fault Refusal :=
  done (request p .removeFrames (removeFramesOwner p reel f n) s)

/-- DEFECT_WALK (R120). -/
def execDefectWalk (s : State) : Host.Outcome State Fault Refusal := done (defectWalk s)

/-- SCENE_WALK (R122). -/
def execSceneWalk (s : State) : Host.Outcome State Fault Refusal := done (sceneWalk s)

end Sys2Proof.Machine
end

