-- ==== Sys2Proof/Machine/SettingsUnit.lean ====
section
/-! DEFINITION. The settings interface: the ranges of the settings block, READ_SETTINGS, WRITE_SETTING and the
write-back (10 section 10.2). -/

namespace Sys2Proof.Machine

/-! ### Items and their ranges -/

/-- A camera cycle time clamped: 0 stays, 1 to 1999 become 2000 (R74, R176). -/
def clampCycle (v : Nat) : Nat := if v = 0 then 0 else clampNat v 2000 100000

/-- A present zone record clamped (10 section 10.2, R176). -/
def clampZone (z : Zone) : Zone where
  first := min 1023 z.first
  last := min 1023 z.last
  preset := min 240 z.preset
  limit := min 2880 z.limit

/-- The value of the item of code `k`, 1 to 7 (R180). -/
def itemValue (g : Settings) : Nat → Nat
  | 1 => g.cycle0
  | 2 => g.cycle1
  | 3 => g.shrinkLimit
  | 4 => g.gentle
  | 5 => g.threading
  | 6 => g.firstWait
  | 7 => g.reissue
  | _ => 0

/-- A value of the item of code `k` clamped to its range (10 section 10.2, R176). -/
def clampItem : Nat → Nat → Nat
  | 1, v => clampCycle v
  | 2, v => clampCycle v
  | 3, v => clampNat v 50 1000
  | 4, v => clampNat v 0 7
  | 5, v => clampNat v 30 3600
  | 6, v => clampNat v 30 720
  | 7, v => clampNat v 0 7
  | _, v => v

/-- The item of code `k` set in an image. -/
def setItem (g : Settings) (k v : Nat) : Settings :=
  match k with
  | 1 => { g with cycle0 := v }
  | 2 => { g with cycle1 := v }
  | 3 => { g with shrinkLimit := v }
  | 4 => { g with gentle := v }
  | 5 => { g with threading := v }
  | 6 => { g with firstWait := v }
  | 7 => { g with reissue := v }
  | _ => g

/-- Zone record `k` set in an image, or made absent. -/
def setZone (g : Settings) (k : Nat) (z : Option Zone) : Settings :=
  match z with
  | some z => { g with zones := tablePut g.zones k z }
  | none => { g with zones := tableErase g.zones k }

/-- The image of a valid block: every item clamped to its range (R176). -/
def clampBlock (b : Settings) : Settings where
  zones := (List.range Config.zoneRecords).filterMap (fun k => (tableGet b.zones k).map (fun z => (k, clampZone z)))
  cycle0 := clampItem 1 b.cycle0
  cycle1 := clampItem 2 b.cycle1
  shrinkLimit := clampItem 3 b.shrinkLimit
  gentle := clampItem 4 b.gentle
  threading := clampItem 5 b.threading
  firstWait := clampItem 6 b.firstWait
  reissue := clampItem 7 b.reissue

/-- The items that the load of a block clamps, as the mask of R180. -/
def clampedItems (b : Settings) : Nat :=
  flagBits
    ((List.range Config.zoneRecords).map
        (fun k => decide ((tableGet b.zones k).map clampZone ≠ tableGet b.zones k)) ++
     (List.range 7).map (fun j => decide (clampItem (j + 1) (itemValue b (j + 1)) ≠ itemValue b (j + 1))))

/-! ### The 8-byte value -/

/-- A zone record in its 8-byte form: presence, first slot, last slot, preset, limit (R180). DEDUCED, log 11. -/
def zoneBytes : Option Zone → Bytes
  | some z => u8 1 ++ u16 z.first ++ u16 z.last ++ u8 z.preset ++ u16 z.limit
  | none => u8 0 ++ u16 65535 ++ u16 65535 ++ u8 0 ++ u16 0

/-- A number in its 8-byte form: in the first 4 bytes, 0 in the last 4 (R180). -/
def numberBytes (v : Nat) : Bytes := u32 v ++ u32 0

/-- The item of code `k` (and zone `z` for code 0) in its 8-byte form (R180). -/
def itemBytes (g : Settings) (k z : Nat) : Bytes :=
  if k = 0 then zoneBytes (tableGet g.zones z) else numberBytes (itemValue g k)

/-- The zone record that an 8-byte value gives, unclamped: its presence byte is 0, 1 or names nothing (R180). -/
def zoneOfValue (v : Nat) : Option (Option Zone) :=
  match v % 256 with
  | 0 => some none
  | 1 => some (some
      { first := v / 2 ^ 8 % 2 ^ 16
        last := v / 2 ^ 24 % 2 ^ 16
        preset := v / 2 ^ 40 % 2 ^ 8
        limit := v / 2 ^ 48 % 2 ^ 16 })
  | _ => none

/-- The number that an 8-byte value gives (R180). -/
def numberOfValue (v : Nat) : Nat := v % 2 ^ 32

/-! ### READ_SETTINGS -/

/-- The code of a write-back outcome: WRITTEN 0, NOT_WRITTEN 1 (R177, R180). -/
def writeOutcome (answered : Bool) : Nat := if answered then 0 else 1

/-- The body of READ_SETTINGS: every item in the order of its code, the load outcome, the items clamped at load, the
last write-back outcome (R177, R180). -/
def settingsBody (s : State) : Bytes :=
  (List.range Config.zoneRecords).flatMap (fun z => itemBytes s.settings 0 z) ++
    (List.range 7).flatMap (fun j => itemBytes s.settings (j + 1) 0) ++
    u8 s.loadOutcome.code ++ u16 s.clampedAtLoad ++ u8Absent (s.lastWriteBack.map writeOutcome)

/-- READ_SETTINGS (R177). -/
def readSettingsOwner (s : State) : Answer := ⟨.ok, settingsBody s, s⟩

/-! ### The block in the settings memory -/

/-- The 16-bit sum of the settings block (R176). -/
def blockSum (g : Settings) : BitVec 16 := sumWords (Config.blockWords g)

/-- The check of the block matches it (R176). -/
def SettingsBlock.valid (b : SettingsBlock) : Bool := b.check = blockSum b.items

/-- An image as the part writes it to the memory, with a new check (R177). -/
def SettingsBlock.of (g : Settings) : SettingsBlock := ⟨g, blockSum g⟩

/-! ### WRITE_SETTING -/

/-- What a WRITE_SETTING asks for, after clamping: the image it makes and whether any part was clamped (R177). -/
structure Applied where
  image : Settings
  clamped : Bool

/-- The first failed check of a WRITE_SETTING, or what it applies (R177). -/
def settingChecks (q : SettingRequest) (s : State) : Except ResultCode Applied :=
  if 7 < q.item then .error .badRequest
  else if q.item = 0 then
    match zoneOfValue q.value with
    | none => .error .badRequest
    | some z =>
      if 7 < q.zone then .error .outOfRange
      else if s.passOpen then .error .passActive
      else .ok ⟨setZone s.settings q.zone (z.map clampZone), z.map clampZone ≠ z⟩
  else if s.passOpen then .error .passActive
  else
    let v := numberOfValue q.value
    .ok ⟨setItem s.settings q.item (clampItem q.item v), clampItem q.item v ≠ v⟩

/-- The exposure test of every reel of a zone (R20, R177). The order of the record index, in which their alerts then
come to the board, is a DESIGN CHOICE, log 28. -/
def testZone (zone : Nat) (s : State) : State :=
  (s.reels.filter (fun e => e.2.zone = zone)).foldl (fun s e => testExposure e.1 s) s

/-- The effects of an applied setting: a zone change re-examines the slots and tests the reels of the zone; the speed
codes follow the image at once (R25, R64, R177). -/
def settingEffects (q : SettingRequest) (s : State) : State :=
  if q.item = 0 then testZone q.zone (checkSlots s) else s

/-- A WRITE_SETTING taken by the settings interface: refused with a reply, or applied with its effects and its
write-back begun, the port still WORKING (R177). -/
def takeSetting (q : SettingRequest) (s : State) : State :=
  match settingChecks q s with
  | .error code => placeReply q.port code [] s
  | .ok a =>
    let s1 := settingEffects q { s with settings := a.image }
    { s1 with writeBack := some { request := q, clamped := a.clamped, image := a.image } }

/-- A WRITE_SETTING handed to the settings interface: held while another is being written back (R177). DEDUCED, log
25. -/
def handSetting (q : SettingRequest) (s : State) : State :=
  if s.writeBack.isSome then { s with heldWrite := some q } else takeSetting q s

/-- The role check of a WRITE_SETTING, then its owner (R163, R177). -/
def serveSetting (q : SettingRequest) (s : State) : State :=
  if permitted .writeSetting q.port then handSetting q s else placeReply q.port .notPermitted [] s

/-- The body of an applied WRITE_SETTING: the item as applied and the write-back outcome (R177). DEDUCED, log 12.
-/
def writeBody (w : WriteBack) (answered : Bool) : Bytes :=
  u8 w.request.item ++ u8 w.request.zone ++ itemBytes w.image w.request.item w.request.zone ++
    u8 (writeOutcome answered)

/-- The reply of an applied WRITE_SETTING: CLAMPED when a part was clamped (R177). -/
def writeCode (w : WriteBack) : ResultCode := if w.clamped then .clamped else .ok

/-- The write-back has ended: the memory holds the image when it answered, the reply is placed, and a held
WRITE_SETTING is taken (R177). -/
def endWriteBack (answered : Bool) (s : State) : State :=
  match s.phase, s.writeBack with
  | .running, some w =>
    let s1 := placeReply w.request.port (writeCode w) (writeBody w answered)
      { s with
        settingsMemory := if answered then some (.of w.image) else s.settingsMemory
        lastWriteBack := some answered
        writeBack := none
        heldWrite := none }
    match s.heldWrite with
    | some q => takeSetting q s1
    | none => s1
  | _, _ => s

/-! ### The commands -/

/-- READ_SETTINGS (R177). -/
def execReadSettings (p : Port) (s : State) : Host.Outcome State Fault Refusal :=
  done (request p .readSettings readSettingsOwner s)

/-- WRITE_SETTING (R177). -/
def execWriteSetting (p : Port) (item zone value : Nat) (s : State) : Host.Outcome State Fault Refusal :=
  done (onFrame p (serveSetting { port := p, item := item, zone := zone, value := value }) s)

/-- WRITE_BACK_DONE (R177). -/
def execWriteBackDone (answered : Bool) (s : State) : Host.Outcome State Fault Refusal :=
  done (endWriteBack answered s)

end Sys2Proof.Machine
end

