-- ==== Sys2Proof/Machine/Shelf.lean ====
section
/-! DEFINITION. The shelf table, the rest rack and the move orders (chapter 2). -/

namespace Sys2Proof.Machine

/-! ### Slots and their reels -/

/-- Slot `n` stops naming the reel in place `i`: it becomes FREE, or BLOCKED in no zone, and when it is the
reel's current slot its number moves to the previous slot (R2, R27). -/
def releaseSlot (n i : Nat) (s : State) : State :=
  (s.setSlot n (emptiedSlot s.settings n)).modReel i (fun r =>
    if r.current = some n then { r with current := none, previous := some n } else r)

/-- Slot `n` as the reel in place `i` leaves it: AWAY when it is the home slot, else released; the slot effect of
an outbound completion on the source and of an inbound fault on the destination (R35, R37). -/
def vacateSlot (n i : Nat) (s : State) : State :=
  match s.reelAt i with
  | none => s
  | some r => if r.home = some n then s.setSlot n (.away r.id) else releaseSlot n i s

/-- The reel in place `i` stands in slot `n`, its current slot (R36, R38, R39). -/
def occupySlot (n i : Nat) (s : State) : State :=
  match s.reelAt i with
  | none => s
  | some r => (s.setSlot n (.occupied r.id)).putReel i { r with current := some n }

/-- Every slot but `n` that names the reel in place `i` is released (R27, R38, R39). DEDUCED, log 17. -/
def releaseOthers (n i : Nat) (s : State) : State :=
  match s.reelAt i with
  | none => s
  | some r =>
    (s.slots.filter (fun e => e.1 ≠ n && e.2.occupant = some r.id)).foldl (fun s e => releaseSlot e.1 i s) s

/-! ### Move orders -/

/-- The wait of attempt `a` in seconds (R33). -/
def moveWait (g : Settings) (a : Nat) : Nat := min 720 (g.firstWait * 2 ^ (a - 1))

/-- The move order of a reel, in the place of its rest-rack position (R31). -/
def State.orderOf (s : State) (r : Reel) : Option MoveOrder := r.rack.bind (tableGet s.orders)

/-- The order number after `last`, 255 followed by 1 (R31). -/
def nextOrder (last : Nat) : Nat := if last < 255 then last + 1 else 1

/-- A move order made for the reel in place `i` on rack position `k`, and its first MOVE_ORDER notice
(R31, R32). -/
def issueOrder (i k : Nat) (dir : Direction) (source dest : Nat) (s : State) : State :=
  match s.reelAt i with
  | none => s
  | some r =>
    let o : MoveOrder :=
      { reel := r.id, number := nextOrder r.lastOrder, dir := dir, source := source, dest := dest,
        attempt := 1, state := .waiting (moveWait s.settings 1) }
    notify .p5 (.moveOrder o (moveWait s.settings 1))
      { s.putReel i { r with lastOrder := nextOrder r.lastOrder } with orders := tablePut s.orders k o }

/-- The order of the reel in place `i` fails: it becomes FAULTED, the reel becomes MOVE_FAULT with the alert raised,
and an inbound destination gives up its reservation (R37). -/
def failOrder (i : Nat) (s : State) : State :=
  match s.reelAt i with
  | none => s
  | some r =>
    match r.rack, s.orderOf r with
    | some k, some o =>
      let s1 := { s with orders := tablePut s.orders k { o with state := .faulted } }
      let s2 := makeFault i o.dir s1
      match o.dir with
      | .outbound => s2
      | .inbound => vacateSlot o.dest i s2
    | _, _ => s

/-- The order of the reel in place `i` is removed (R31). -/
def removeOrder (i : Nat) (s : State) : State :=
  match (s.reelAt i).bind (·.rack) with
  | none => s
  | some k => { s with orders := tableErase s.orders k }

/-- The wait of the order of the reel in place `i` expires: it is re-issued with the next attempt, or fails. Only a
WAITING order has a wait (R33). -/
def waitExpiry (i : Nat) (s : State) : State :=
  match s.reelAt i with
  | none => s
  | some r =>
    match r.rack, s.orderOf r with
    | some k, some o =>
      match o.state with
      | .faulted => s
      | .waiting _ =>
        if o.attempt < s.settings.reissue + 1 then
          let w := moveWait s.settings (o.attempt + 1)
          let o' : MoveOrder := { o with attempt := o.attempt + 1, state := .waiting w }
          notify .p5 (.moveOrder o' w) { s with orders := tablePut s.orders k o' }
        else failOrder i s
    | _, _ => s

/-- MOVE_WAIT_EXPIRY (R33). -/
def execMoveWaitExpiry (reel : Nat) (s : State) : Host.Outcome State Fault Refusal :=
  done (onTimer reel waitExpiry s)

/-! ### Recall and return -/

/-- RECALL(reel) (R7). -/
def recallOwner (reel : Nat) (s : State) : Answer :=
  withFreeReel reel s (fun i r =>
    match r.custody with
    | .shelved =>
      match lowestFree Config.rackPositions (s.rack.map (·.1)) with
      | none => refuse .stagingFull s
      | some k =>
        let s1 := { s with rack := tablePut s.rack k r.id }
        let s2 := s1.putReel i { r with rack := some k, custody := .outbound }
        custodyOk i (issueOrder i k .outbound (r.current.getD 0) k s2)
    | _ => refuse .wrongState s)

/-- The slot may take the reel back as its home: AWAY with its ID, or FREE (R29). -/
def Slot.isHomeFor (v : Slot) (id : Nat) : Bool :=
  match v with
  | .free => true
  | .away r => r = id
  | _ => false

/-- Slot resolution: the home slot, the previous slot, then the lowest FREE slot of the reel's zone (R29). -/
def resolveSlot (r : Reel) (s : State) : Option Nat :=
  match r.home.filter (fun n => (s.slotAt n).isHomeFor r.id) with
  | some n => some n
  | none =>
    match r.previous.filter (fun n => s.slotAt n = .free) with
    | some n => some n
    | none =>
      (s.slots.find? (fun e => e.2 = .free && zoneOf s.settings e.1 = some r.zone)).map (·.1)

/-- RETURN(reel) (R18, R29, R30). -/
def returnOwner (p : Port) (reel : Nat) (s : State) : Answer :=
  withFreeReel reel s (fun i r =>
    if r.waiters ≠ [] then refuse .waiters s
    else match r.custody with
      | .ready =>
        match resolveSlot r s with
        | none => refuse .zoneFull (raiseAlert .zoneFull (some r.id) (some (.port p)) s)
        | some n =>
          let s1 := (s.setSlot n (.reserved r.id)).putReel i { r with current := some n, custody := .inbound }
          let k := r.rack.getD 0
          custodyOk i (issueOrder i k .inbound k n s1)
      | _ => refuse .wrongState s)

/-- RECALL (R7). -/
def execRecall (p : Port) (reel : Nat) (s : State) : Host.Outcome State Fault Refusal :=
  done (request p .recallReel (recallOwner reel) s)

/-- RETURN (R18). -/
def execReturnReel (p : Port) (reel : Nat) (s : State) : Host.Outcome State Fault Refusal :=
  done (request p .returnReel (returnOwner p reel) s)

/-! ### Completion, failure and LOCATE -/

/-- An outbound completion of the reel in place `i` from slot `n` (R35). -/
def outboundComplete (i n : Nat) (s : State) : State := makeResting i (removeOrder i (vacateSlot n i s))

/-- An inbound completion of the reel in place `i` into slot `n` (R36). -/
def inboundComplete (i n : Nat) (s : State) : State := makeShelved i (occupySlot n i s)

/-- The checks that MOVE_DONE and MOVE_FAILED share: order number 0, then a number other than the last
(R34, R37). -/
def withOrder (reel order : Nat) (s : State) (f : Nat → Reel → MoveOrder → Answer) : Answer :=
  withFreeReel reel s (fun i r =>
    if order = 0 then refuse .outOfRange s
    else if order ≠ r.lastOrder then refuse .staleOrder s
    else match s.orderOf r with
      | none => refuse .wrongState s
      | some o => f i r o)

/-- MOVE_DONE(reel, order) (R34, R35, R36, R38). -/
def moveDoneOwner (reel order : Nat) (s : State) : Answer :=
  withOrder reel order s (fun i r o =>
    match r.custody with
    | .outbound => custodyOk i (outboundComplete i o.source s)
    | .inbound => custodyOk i (inboundComplete i o.dest s)
    | .moveFault .outbound =>
      custodyOk i (removeAlert .moveFault (some r.id) none (outboundComplete i o.source s))
    | .moveFault .inbound =>
      if (s.slotAt o.dest).isHomeFor r.id then
        custodyOk i (inboundComplete i o.dest (releaseOthers o.dest i s))
      else refuse .inUse s
    | _ => refuse .wrongState s)

/-- MOVE_FAILED(reel, order) (R37). -/
def moveFailedOwner (reel order : Nat) (s : State) : Answer :=
  withOrder reel order s (fun i r _ =>
    match r.custody with
    | .outbound => ⟨.ok, [], failOrder i s⟩
    | .inbound => ⟨.ok, [], failOrder i s⟩
    | _ => refuse .wrongState s)

/-- What LOCATE answers of a slot that cannot take the reel: IN_USE when it names another reel, WRONG_STATE
otherwise (R39). -/
def locateRefusal (v : Slot) (id : Nat) : ResultCode :=
  match v.occupant with
  | some r => if r = id then .wrongState else .inUse
  | none => .wrongState

/-- The slot can take the located reel: FREE, AWAY or OCCUPIED with its ID (R39). -/
def Slot.takesLocated (v : Slot) (id : Nat) : Bool :=
  v.isHomeFor id || v = .occupied id

/-- LOCATE to a slot (R39). -/
def locateSlot (i n : Nat) (r : Reel) (s : State) : Answer :=
  if Config.slotPlaces ≤ n then refuse .outOfRange s
  else if (s.slotAt n).takesLocated r.id then
    ⟨.ok, [], inboundComplete i n (releaseOthers n i s)⟩
  else refuse (locateRefusal (s.slotAt n) r.id) s

/-- The reel in place `i` moves from its rack position to position `k` (R40). -/
def moveOnRack (i k : Nat) (s : State) : State :=
  match s.reelAt i with
  | none => s
  | some r =>
    if r.rack = some k then s
    else
      let freed := match r.rack with
        | some j => tableErase s.rack j
        | none => s.rack
      { s.putReel i { r with rack := some k } with rack := tablePut freed k r.id }

/-- LOCATE to a rack position (R40). -/
def locateRack (i k : Nat) (dir : Direction) (r : Reel) (s : State) : Answer :=
  if Config.rackPositions ≤ k then refuse .outOfRange s
  else if r.rack ≠ some k ∧ (tableGet s.rack k).isSome then refuse .inUse s
  else
    let source := ((s.orderOf r).map (·.source)).getD 0
    let s1 := moveOnRack i k (removeOrder i s)
    let s2 := match dir with
      | .outbound => makeResting i (vacateSlot source i s1)
      | .inbound => makeReady i s1
    ⟨.ok, [], removeAlert .moveFault (some r.id) none s2⟩

/-- LOCATE(reel, place): the checks of the reel, the kind of the place, then the custody (R4, R39, R40). The place of
the second among them is DEDUCED, log 13. -/
def locateOwner (reel placeKind place : Nat) (s : State) : Answer :=
  withFreeReel reel s (fun i r =>
    match placeOf placeKind place with
    | none => refuse .badRequest s
    | some pl =>
      match r.custody, pl with
      | .moveFault _, .slot n => locateSlot i n r s
      | .moveFault dir, .rack k => locateRack i k dir r s
      | _, _ => refuse .wrongState s)

/-- MOVE_DONE (R34). -/
def execMoveDone (p : Port) (reel order : Nat) (s : State) : Host.Outcome State Fault Refusal :=
  done (request p .moveDone (moveDoneOwner reel order) s)

/-- MOVE_FAILED (R37). -/
def execMoveFailed (p : Port) (reel order : Nat) (s : State) : Host.Outcome State Fault Refusal :=
  done (request p .moveFailed (moveFailedOwner reel order) s)

/-- LOCATE (R39, R40). -/
def execLocate (p : Port) (reel placeKind place : Nat) (s : State) : Host.Outcome State Fault Refusal :=
  done (request p .locate (locateOwner reel placeKind place) s)

/-! ### Inventory -/

/-- The part believes that the reel of an OCCUPIED slot stands in or comes from it: check 3 of R41. -/
def believed (slot id : Nat) (s : State) : Bool :=
  match s.findReel id with
  | none => false
  | some (_, r) =>
    match r.custody with
    | .shelved => true
    | .outbound => r.current = some slot
    | .moveFault _ => r.current = some slot
    | _ => false

/-- A slot other than `slot` names the reel ID (R41). -/
def namedElsewhere (slot id : Nat) (s : State) : Bool :=
  s.slots.any (fun e => e.1 ≠ slot && e.2.occupant = some id)

/-- A reel record carries the ID and does not name `slot` as its current slot (R41). -/
def carriedElsewhere (slot id : Nat) (s : State) : Bool :=
  match s.findReel id with
  | none => false
  | some (_, r) => r.current ≠ some slot

/-- Check 3 of R41: the slot is OCCUPIED with a reel the part believes in, and the report says otherwise. -/
def reportInUse (slot : Nat) (content : Option Nat) (s : State) : Bool :=
  match s.slotAt slot with
  | .occupied id => believed slot id s && content ≠ some id
  | _ => false

/-- Check 4 of R41. -/
def reportDuplicate (slot : Nat) (content : Option Nat) (s : State) : Bool :=
  match content with
  | some id => namedElsewhere slot id s || carriedElsewhere slot id s
  | none => false

/-- SLOT_REPORT(slot, content) (R41). -/
def slotReportOwner (slot content reel : Nat) (s : State) : Answer :=
  match contentOf content reel with
  | none => refuse .badRequest s
  | some c =>
    if Config.slotPlaces ≤ slot ∨ c = some 0 then refuse .outOfRange s
    else match s.slotAt slot with
      | .blocked => refuse .wrongState s
      | .reserved _ => refuse .wrongState s
      | .away _ => refuse .wrongState s
      | _ =>
        if reportInUse slot c s then refuse .inUse s
        else if reportDuplicate slot c s then refuse .duplicate s
        else match c with
          | some id => ⟨.ok, [], s.setSlot slot (.occupied id)⟩
          | none => ⟨.ok, [], s.setSlot slot (emptiedSlot s.settings slot)⟩

/-- BLOCK_SLOT(slot) (R42). -/
def blockSlotOwner (slot : Nat) (s : State) : Answer :=
  if Config.slotPlaces ≤ slot then refuse .outOfRange s
  else match s.slotAt slot with
    | .free => ⟨.ok, [], s.setSlot slot .blocked⟩
    | .unknown => ⟨.ok, [], s.setSlot slot .blocked⟩
    | .blocked => ⟨.ok, [], s⟩
    | _ => refuse .wrongState s

/-- UNBLOCK_SLOT(slot) (R42). -/
def unblockSlotOwner (slot : Nat) (s : State) : Answer :=
  if Config.slotPlaces ≤ slot then refuse .outOfRange s
  else if s.slotAt slot = .blocked ∧ (zoneOf s.settings slot).isSome then
    ⟨.ok, [], s.setSlot slot .unknown⟩
  else refuse .wrongState s

/-- The slot item of READ_SLOTS (R182). -/
def slotItem (n : Nat) (s : State) : Bytes :=
  u16 n ++ u8 (s.slotAt n).code ++ reelField (s.slotAt n).occupant ++ u8Absent (zoneOf s.settings n)

/-- The number of slots that one READ_SLOTS lists: within the count asked, the wall and a body of 512 bytes
(R43, R182). -/
def slotsListed (first count : Nat) : Nat := min (min count 63) (Config.slotPlaces - first)

/-- The body of READ_SLOTS with the slot area (R43, R182). -/
def slotsBody (first count : Nat) (s : State) : Bytes :=
  u16 (first + slotsListed first count) ++
    (List.range (slotsListed first count)).flatMap (fun j => slotItem (first + j) s)

/-- The rack item of READ_SLOTS (R182). DEDUCED, log 11. -/
def rackItem (k : Nat) (s : State) : Bytes :=
  let o := tableGet s.orders k
  let wait := match o.map (·.state) with
    | some (.waiting w) => w
    | _ => 0
  u8 k ++ reelField (tableGet s.rack k) ++ u8 ((o.map (·.number)).getD 0) ++
    u8Absent (o.map (fun o => o.dir.code)) ++ u16Absent (o.map (·.source)) ++ u16Absent (o.map (·.dest)) ++
    u8 ((o.map (·.attempt)).getD 0) ++ u8Absent (o.map (fun o => o.state.code)) ++ u16 wait

/-- The body of READ_SLOTS with the rack area: all 16 positions (R43, R182). -/
def rackBody (s : State) : Bytes := (List.range Config.rackPositions).flatMap (fun k => rackItem k s)

/-- READ_SLOTS(area, from, count) (R43). -/
def readSlotsOwner (area first count : Nat) (s : State) : Answer :=
  match areaOf area with
  | none => refuse .badRequest s
  | some true => ⟨.ok, rackBody s, s⟩
  | some false =>
    if Config.slotPlaces ≤ first ∨ count = 0 ∨ Config.slotPlaces < count then refuse .outOfRange s
    else ⟨.ok, slotsBody first count s, s⟩

/-- SLOT_REPORT (R41). -/
def execSlotReport (p : Port) (slot content reel : Nat) (s : State) : Host.Outcome State Fault Refusal :=
  done (request p .slotReport (slotReportOwner slot content reel) s)

/-- BLOCK_SLOT (R42). -/
def execBlockSlot (p : Port) (slot : Nat) (s : State) : Host.Outcome State Fault Refusal :=
  done (request p .blockSlot (blockSlotOwner slot) s)

/-- UNBLOCK_SLOT (R42). -/
def execUnblockSlot (p : Port) (slot : Nat) (s : State) : Host.Outcome State Fault Refusal :=
  done (request p .unblockSlot (unblockSlotOwner slot) s)

/-- READ_SLOTS (R43). -/
def execReadSlots (p : Port) (area first count : Nat) (s : State) : Host.Outcome State Fault Refusal :=
  done (request p .readSlots (readSlotsOwner area first count) s)

end Sys2Proof.Machine
end

