-- ==== Sys2Proof/Machine/Startup.lean ====
section
/-! DEFINITION. Stopping and starting the part: the assertion of RESET, the loss of power, and the steps of start-up
(10 section 10.3, and the reset rules of the other chapters). -/

namespace Sys2Proof.Machine

/-! ### Stopping -/

/-- A port of a stopped part: closed, its reply, queue and flags lost (R172). -/
def PortState.shut : PortState where
  status := .closed
  notices := []
  marker := none
  flags := .clear
  dataOut := []

/-- The lines of a stopped transport: CAPTURE negated, TAG idle, the input levels as they are (R46, R178). -/
def Lines.stilled (l : Lines) : Lines := .quiet l.dirLine l.breakLine

/-- All work stopped and the working state lost; a write-back that is cut leaves a block whose check does not match
(R172, R177, R178). The working fields of the reel records begin again at the next start (R23). -/
def stopWork (phase : Phase) (s : State) : State :=
  { s with
    phase := phase
    ports := .const .shut
    renumberWork := none
    units := .const (.cleared false)
    lines := ⟨s.lines.t0.stilled, s.lines.t1.stilled⟩
    passes := .const none
    heldEdits := none
    alerts := []
    settingsMemory := if s.writeBack.isSome then none else s.settingsMemory
    writeBack := none
    heldWrite := none }

/-! ### Steps 1 and 2: the retained store and the settings -/

/-- The check of the retained store: its contents are summed, and a store whose check value is not the sum is emptied,
the lost mark set and a new check value written (R175). -/
def checkStore (s : State) : State :=
  if s.storeSum = s.checkValue then s
  else { s with
    reels := []
    slots := []
    rack := []
    orders := []
    pendingRenumber := none
    lostMark := true
    checkSkew := 0 }

/-- The settings memory as start-up finds it: with another block when one was written from outside (R176). -/
def findMemory (mem : SettingsRead) (s : State) : State :=
  match mem with
  | .newBlock b => { s with settingsMemory := some b }
  | _ => s

/-- The block and check that the reading of the settings memory gives; none when the memory does not answer, or when it
holds what a cut write-back left (R176, R177). -/
def memoryAnswer (mem : SettingsRead) (s : State) : Option SettingsBlock :=
  match mem with
  | .silent => none
  | .asHeld => s.settingsMemory
  | .newBlock b => some b
  | .misread b => some b

/-- The items of the block read, when its check matches the sum of the block (R176). -/
def blockRead (mem : SettingsRead) (s : State) : Option Settings :=
  ((memoryAnswer mem s).filter SettingsBlock.valid).map (·.items)

/-- The load of the settings: a valid block clamped into the image, else the defaults; the memory is not written by
the part (R176). -/
def loadSettings (mem : SettingsRead) (s : State) : State :=
  match blockRead mem s with
  | some b =>
    { s with settings := clampBlock b, loadOutcome := .valid, clampedAtLoad := clampedItems b, lastWriteBack := none }
  | none =>
    { s with settings := defaultSettings, loadOutcome := .defaulted, clampedAtLoad := 0, lastWriteBack := none }

/-- While the lost mark is set, every slot numbered below `limit` in no zone of the loaded table becomes BLOCKED
(R175). -/
def markLostBelow (limit : Nat) (s : State) : State :=
  if s.lostMark then
    (List.range limit).foldl
      (fun s n => if (zoneOf s.settings n).isSome then s else s.setSlot n .blocked) s
  else s

/-- While the lost mark is set, every slot in no zone of the loaded table becomes BLOCKED (R175). -/
def markLostSlots (s : State) : State := markLostBelow Config.slotPlaces s

/-! ### Step 4: the reset of each block -/

/-- The custody state after start-up (R23). DEDUCED, log 23. -/
def Custody.restarted (preset : Nat) : Custody → Custody
  | .shelved => .shelved
  | .outbound => .moveFault .outbound
  | .resting _ => .resting (preset * 60)
  | .ready => .ready
  | .granted _ _ => .ready
  | .held p => .held p
  | .inbound => .moveFault .inbound
  | .moveFault d => .moveFault d

/-- The lapsed port after start-up: the former holder of a reel found GRANTED, else cleared (R23). -/
def Custody.lapsedAtStart : Custody → Option Port
  | .granted p _ => some p
  | _ => none

/-- The entries after start-up: the claims of a reel found GRANTED are returned (R23, R107). -/
def Custody.entriesAtStart (c : Custody) (ds : List Defect) : List Defect :=
  match c with
  | .granted p _ => returnClaims p ds
  | _ => ds

/-- A reel record after the custody reset, its counts counted again (R23, R114). -/
def Reel.restarted (g : Settings) (r : Reel) : Reel :=
  ({ r with
    custody := r.custody.restarted (zonePreset g r.zone)
    waiters := []
    lapsed := r.custody.lapsedAtStart
    exposureSeconds := 0 } : Reel).withDefects (r.custody.entriesAtStart r.defects)

/-- The shelf table's part in the reset of the reel in place `i`, found in OUTBOUND or INBOUND: its order becomes
FAULTED and an inbound destination gives up its reservation (R44). -/
def faultOrder (i : Nat) (r : Reel) (s : State) : State :=
  match r.custody, r.rack, s.orderOf r with
  | .outbound, some k, some o => { s with orders := tablePut s.orders k { o with state := .faulted } }
  | .inbound, some k, some o =>
    vacateSlot o.dest i { s with orders := tablePut s.orders k { o with state := .faulted } }
  | _, _, _ => s

/-- The reset of the reel table, the shelf table and the defect register over the records found in the places that
`test` names (R23, R44, R114). -/
def resetReels (test : Nat → Bool) (s : State) : State :=
  let s1 := (s.reels.filter (fun e => test e.1)).foldl (fun s e => faultOrder e.1 e.2 s) s
  { s1 with reels := s1.reels.map (fun e => if test e.1 then (e.1, e.2.restarted s1.settings) else e) }

/-- The reset of every record, and the check of the slots against the zone table as loaded (R23, R44, R114). -/
def resetRecords (s : State) : State := checkSlots (resetReels (fun _ => true) s)

/-- The reset of the working blocks: the held-edit buffer, both registration units with their break latches as found,
and both pass places (R69, R91, R150). -/
def resetWork (break0 break1 : Bool) (s : State) : State :=
  { s with
    heldEdits := none
    renumberWork := none
    units := ⟨.cleared break0, .cleared break1⟩
    lines := ⟨.quiet s.lines.t0.dirLine break0, .quiet s.lines.t1.dirLine break1⟩
    passes := .const none }

/-! ### Steps 5 and 6: the alerts and the ports -/

/-- An alert raised at start-up when `cond` holds. -/
def startAlert (cond : Bool) (code : AlertCode) (place : Option AlertPlace) (s : State) : State :=
  if cond then raiseAlert code none place s else s

/-- An alert raised at start-up for each reel that satisfies `test`, in the order of the record index. -/
def startReelAlerts (test : Reel → Bool) (code : AlertCode) (s : State) : State :=
  (s.reels.filter (fun e => test e.2)).foldl (fun s e => raiseAlert code (some e.2.id) none s) s

/-- The suite minute at 0 and the start-up alerts in their order, on an empty board (R160). -/
def startAlerts (s : State) : State :=
  let s0 := { s with suiteMinute := 0, suiteSecond := 0, alerts := [] }
  let s1 := startAlert s.lostMark .retainedLost none s0
  let s2 := startAlert (s.loadOutcome = .defaulted) .settingsDefaulted none s1
  let s3 := startAlert (s.unit .t0).breakLatch .filmBreak (some (.transport .t0)) s2
  let s4 := startAlert (s.unit .t1).breakLatch .filmBreak (some (.transport .t1)) s3
  let s5 := startReelAlerts Reel.inFault .moveFault s4
  let s6 := startReelAlerts (·.overexposed) .exposureLimit s5
  let s7 := startAlert s.defectPoolFull .defectPoolFull none s6
  startAlert s.scenePoolFull .scenePoolFull none s7

/-- The START code of a start-up (R179). -/
def startCode (s : State) : StartCode :=
  if s.lostMark || s.loadOutcome = .defaulted then .degraded s.lostMark (s.loadOutcome = .defaulted) else .ok

/-- Each port opened with its START notice, and the lost mark cleared with a new check value (R179). -/
def openPorts (s : State) : State :=
  { s with phase := .running, ports := .const (.opened (startCode s)), lostMark := false, checkSkew := 0 }

/-- Start-up from step 2 on (R178). -/
def startUp (mem : SettingsRead) (break0 break1 : Bool) (s : State) : State :=
  openPorts (startAlerts (resetWork break0 break1 (resetRecords (resumeRenumber
    (markLostSlots (loadSettings mem (findMemory mem s)))))))

/-! ### A start-up that is cut off -/

/-- The state to which a start-up has come at a stage; `check` is its first step (R178). -/
def startTo (check : State → State) (mem : SettingsRead) (k : StartStage) (s : State) : State :=
  let found := findMemory mem s
  let loaded := loadSettings mem (check found)
  match k with
  | .begun => found
  | .checked => check found
  | .marking n => markLostBelow (min n Config.slotPlaces) loaded
  | .resuming k => resumeTo k (markLostSlots loaded)
  | .records n => resetReels (fun i => i < n) (resumeRenumber (markLostSlots loaded))
  | .slots n =>
    checkSlotsBelow (min n Config.slotPlaces) (resetReels (fun _ => true) (resumeRenumber (markLostSlots loaded)))

/-- The retained records as `now` holds them, with a new check value when they are not those of `before` (R174). -/
def coverStore (before now : State) : State :=
  if now.retained = before.retained then now else { now with checkSkew := 0 }

/-- What a loss of power leaves in the store: what stood in it, or other contents with the check value that then stands
beside them (R174, R175). DESIGN CHOICE, log 6. -/
def loseStore (store : StoreLoss) (s : State) : State :=
  match store with
  | .kept => s
  | .changed c check =>
    let s1 := { s with
      reels := c.reels
      slots := c.slots
      rack := c.rack
      orders := c.orders
      pendingRenumber := c.pendingRenumber
      lostMark := c.lostMark }
    { s1 with checkSkew := check - s1.storeSum }

/-- The loss of power (R174, R178). -/
def powerLoss (store : StoreLoss) (s : State) : State := loseStore store (stopWork .unpowered s)

/-- A start-up ended where it stands by a loss of power or by the assertion of RESET: the retained records stay as it
left them (R178). -/
def endStart (by_ : StartEnd) (s : State) : State :=
  match by_ with
  | .powerLoss store => powerLoss store s
  | .resetAsserted => stopWork .resetHeld s

/-- A start-up to its end, or to the stage at which it is cut off (R178). -/
def start (check : State → State) (mem : SettingsRead) (break0 break1 : Bool) (cut : Option StartCut) (s : State) :
    State :=
  match cut with
  | none => startUp mem break0 break1 (check s)
  | some c => endStart c.by_ (coverStore s (startTo check mem c.stage s))

/-! ### The commands -/

/-- Power-on: start-up from its first step (R178). DESIGN CHOICE, log 19. -/
def powerOn (mem : SettingsRead) (break0 break1 : Bool) (cut : Option StartCut) (s : State) : State :=
  start checkStore mem break0 break1 cut (stopWork .unpowered s)

/-- The negation of RESET: start-up from step 2, with the store as it stands; a part without supply does not start
(R175, R178). -/
def resetNegated (mem : SettingsRead) (break0 break1 : Bool) (cut : Option StartCut) (s : State) : State :=
  match s.phase with
  | .unpowered => s
  | _ => start id mem break0 break1 cut (stopWork .resetHeld s)

/-- The assertion of RESET (R172, R178). -/
def resetAsserted (s : State) : State :=
  match s.phase with
  | .unpowered => s
  | _ => stopWork .resetHeld s

/-- POWER_ON (R178). -/
def execPowerOn (run : StartRun) (break0 break1 : Bool) (s : State) : Host.Outcome State Fault Refusal :=
  done (powerOn run.mem break0 break1 run.cut s)

/-- RESET (R178). -/
def execReset (run : StartRun) (break0 break1 : Bool) (s : State) : Host.Outcome State Fault Refusal :=
  done (resetNegated run.mem break0 break1 run.cut s)

/-- RESET_ASSERTED (R178). -/
def execResetAsserted (s : State) : Host.Outcome State Fault Refusal := done (resetAsserted s)

/-- POWER_LOSS (R178). -/
def execPowerLoss (store : StoreLoss) (s : State) : Host.Outcome State Fault Refusal := done (powerLoss store s)

end Sys2Proof.Machine
end

