-- ==== Sys2Proof/Machine/PortRequests.lean ====
section
/-! DEFINITION. The frames that the port itself answers: FETCH, malformed frames, FETCH_NOTICE, CLEAR_FLAGS and
RESET_PORT, and the bytes of a notice (chapter 9, 11 section 11.2). -/

namespace Sys2Proof.Machine

/-! ### Notice entries -/

/-- The code and reasons of a START notice (R181). -/
def StartCode.bytes : StartCode → Bytes
  | .ok => u8 0 ++ u8 0
  | .degraded lost defaulted => u8 1 ++ u8 (flagBits [lost, defaulted])
  | .portReset => u8 2 ++ u8 0

/-- The stage byte of PASS_ENDED: stage, transport, kind, end reason, abort cause, count confirmed (R181). -/
def stageByte (closed : Bool) (t : Transport) (p : Pass) (confirmed : Bool) : Nat :=
  let reason := (p.reason.map EndReason.code).getD 0
  let cause := ((p.reason.bind EndReason.cause).map AbortCause.code).getD 0
  closed.toNat + 2 * transportCode t + 4 * p.kind.code + 8 * reason + 32 * cause +
    (if closed && confirmed then 128 else 0)

/-- The payload of a notice, without the bytes it leaves unused (R181). -/
def Notice.payload : Notice → Bytes
  | .start code => code.bytes
  | .alertRaised code reel at_ place => u8 code.kindByte ++ reelField reel ++ alertPlaceByte at_ ++ u8 place
  | .alertCleared code reel count by_ =>
      u8 code.kindByte ++ reelField reel ++ u8 count ++ u8 ((by_.map (fun p => portCode p + 1)).getD 0)
  | .granted reel timeout => u32 reel ++ u16 timeout
  | .lapsed reel => u32 reel
  | .queueDropped reel reason => u32 reel ++ u8 reason.code
  | .renumberDone reel count => u32 reel ++ u16 count
  | .editAbandoned reel edits cause => u32 reel ++ u8 edits ++ u8 cause.code
  | .gradeUnlocked reel => u32 reel
  | .moveOrder o wait =>
      u32 o.reel ++ u8 o.number ++ u8 o.attempt ++ u8 o.dir.code ++ u16 o.source ++ u16 o.dest ++ u16 wait
  | .passEnded t p =>
      u8 (stageByte false t p false) ++ u32 p.reel ++ u16 p.number ++ u16 p.captured ++ u16 p.missed ++
        u16Absent p.highest
  | .passClosed t p verified count confirmed =>
      u8 (stageByte true t p confirmed) ++ u32 p.reel ++ u16 p.number ++ u16 verified ++
        u16 (count.getD 0) ++ flag count.isSome

/-- The first byte of a notice entry: the kind in bits 0 to 4 and the part in bits 5 and 6 (R181). -/
def entryHead (kind part : Nat) : Bytes := u8 (kind + 32 * part)

/-- Bytes made up to a length with bytes of 0 (R181). -/
def padTo (n : Nat) (bs : Bytes) : Bytes := bs ++ List.replicate (n - bs.length) 0

/-- A notice as its one or two entries of 8 bytes (R181). -/
def Notice.bytes (n : Notice) : Bytes :=
  if n.entries = 1 then entryHead n.kindCode 0 ++ padTo 7 n.payload
  else
    entryHead n.kindCode 1 ++ padTo 7 (n.payload.take 7) ++
      entryHead n.kindCode 2 ++ padTo 7 (n.payload.drop 7)

/-- The overflow marker as its entry (R168, R181). -/
def Marker.bytes (m : Marker) : Bytes := entryHead 9 0 ++ padTo 7 (u8 m.drops ++ u8 m.kind)

/-! ### FETCH -/

/-- Data out during a select frame that clocks `clocks` bytes after the third: what the part sends, then bytes of 255
(R161, R163, R180). The first three bytes of the frame meet data out at its idle level. -/
def sendOut (p : Port) (bytes : Bytes) (clocks : Nat) (s : State) : State :=
  s.setPort p { s.port p with dataOut := clockOut bytes clocks }

/-- A FETCH in REPLY: the reply is sent, and is read when its last byte has been clocked out (R163). -/
def fetchReply (p : Port) (r : Reply) (clocks : Nat) (s : State) : State :=
  let s1 := sendOut p r.bytes clocks s
  if r.bytes.length ≤ clocks then s1.setPort p { s1.port p with status := .idle } else s1

/-- A FETCH frame in each port state (R162, R163, R164, R172). -/
def fetch (p : Port) (clocks : Nat) (s : State) : State :=
  match (s.port p).status with
  | .closed => s
  | .working => ignoreFrame p s
  | .idle => sendOut p (noReplyHeader p s) clocks s
  | .reply r => fetchReply p r clocks s

/-- A frame that fails the frame check: answered BAD_REQUEST by the port; a select frame with no byte is no frame
(R161, R163). -/
def malformedFrame (p : Port) (frame : Bytes) (s : State) : State :=
  if frame = [] then s else onFrame p (placeReply p .badRequest []) s

/-! ### Requests that the port owns -/

/-- FETCH_NOTICE: the notice at the head, or the marker once it has reached the head (R168, R169). -/
def fetchNoticeOwner (p : Port) (s : State) : Answer :=
  match (s.port p).notices, (s.port p).marker with
  | n :: ns, _ => ⟨.ok, n.bytes, s.setPort p { s.port p with notices := ns }⟩
  | [], some m => ⟨.ok, m.bytes, s.setPort p { s.port p with marker := none }⟩
  | [], none => ⟨.ok, [], s⟩

/-- CLEAR_FLAGS(mask) (R166). -/
def clearFlagsOwner (p : Port) (mask : Nat) (s : State) : Answer :=
  ⟨.ok, [], s.setPort p { s.port p with flags := (s.port p).flags.cleared mask }⟩

/-- RESET_PORT: queue, marker and flags cleared, the held edits of P4 discarded without a notice, and START with
code PORT_RESET placed (R170). -/
def resetPortOwner (p : Port) (s : State) : Answer :=
  let s1 := s.setPort p { s.port p with notices := [.start .portReset], marker := none, flags := .clear }
  ⟨.ok, [], if p = .p4 then { s1 with heldEdits := none } else s1⟩

/-! ### The commands -/

/-- FETCH (R163). -/
def execFetch (p : Port) (clocks : Nat) (s : State) : Host.Outcome State Fault Refusal := done (fetch p clocks s)

/-- MALFORMED_FRAME (R163). -/
def execMalformedFrame (p : Port) (frame : Bytes) (s : State) : Host.Outcome State Fault Refusal :=
  done (malformedFrame p frame s)

/-- FETCH_NOTICE (R169). -/
def execFetchNotice (p : Port) (s : State) : Host.Outcome State Fault Refusal :=
  done (request p .fetchNotice (fetchNoticeOwner p) s)

/-- CLEAR_FLAGS (R166). -/
def execClearFlags (p : Port) (mask : Nat) (s : State) : Host.Outcome State Fault Refusal :=
  done (request p .clearFlags (clearFlagsOwner p mask) s)

/-- RESET_PORT (R170). -/
def execResetPort (p : Port) (s : State) : Host.Outcome State Fault Refusal :=
  done (request p .resetPort (resetPortOwner p) s)

end Sys2Proof.Machine
end

