-- ==== Sys2Proof/Machine/Tick.lean ====
section
/-! DEFINITION. One second of the part's own clock, which passes when no command waits (log 2). -/

namespace Sys2Proof.Machine

/-- A second of exposure of the reel in place `i`: the seconds count advances in a state that counts, and passes 59
with the exposure minute (R19). -/
def exposureSecond (i : Nat) (s : State) : State :=
  match s.reelAt i with
  | none => s
  | some r =>
    if r.custody.exposes then
      if r.exposureSeconds < 59 then s.putReel i { r with exposureSeconds := r.exposureSeconds + 1 }
      else exposureMinute i s
    else s

/-- A second of the resting or threading timer of the reel in place `i`, with its expiry (R10, R15). -/
def timerSecond (i : Nat) (s : State) : State :=
  match s.reelAt i with
  | none => s
  | some r =>
    match r.custody with
    | .resting w => if w ≤ 1 then restingExpiry i s else s.putReel i { r with custody := .resting (w - 1) }
    | .granted p w => if w ≤ 1 then threadingExpiry i s else s.putReel i { r with custody := .granted p (w - 1) }
    | _ => s

/-- A second of the wait of the order on rack position `k`, with its expiry (R33). -/
def waitSecond (k : Nat) (s : State) : State :=
  match tableGet s.orders k with
  | none => s
  | some o =>
    match o.state with
    | .faulted => s
    | .waiting w =>
      if w ≤ 1 then
        match s.findReel o.reel with
        | some (i, _) => waitExpiry i s
        | none => s
      else { s with orders := tablePut s.orders k { o with state := .waiting (w - 1) } }

/-- A second of the suite minute (R151). -/
def minuteSecond (s : State) : State :=
  if s.suiteSecond < 59 then { s with suiteSecond := s.suiteSecond + 1 } else advanceMinute s

/-- The tags that were leaving have left (R82). DESIGN CHOICE, log 8. -/
def drainTags (s : State) : State :=
  { s with lines := ⟨{ s.lines.t0 with tags := [] }, { s.lines.t1 with tags := [] }⟩ }

/-- One second of the running part: the timestamp, the suite minute, each reel in the order of its index (exposure,
then its timer), each order in the order of its rack position, and TAG; a stopped part counts nothing. DESIGN
CHOICE, log 2. -/
def tick (s : State) : State :=
  match s.phase with
  | .running =>
    let s1 := minuteSecond { s with timestamp := s.timestamp + 1000000 }
    let s2 := s1.reels.foldl (fun s e => timerSecond e.1 (exposureSecond e.1 s)) s1
    let s3 := s2.orders.foldl (fun s e => waitSecond e.1 s) s2
    drainTags s3
  | _ => s

end Sys2Proof.Machine
end

