-- ==== Sys2Proof/Machine/Dispatch.lean ====
section
/-! DEFINITION. Which meaning each command has: one arm for each constructor of `Instr`. -/

namespace Sys2Proof.Machine

/-- The effect of a command on everything but the queue, as one whole step. DESIGN CHOICE, log 7. -/
def exec (i : Instr) (s : State) : Host.Outcome State Fault Refusal :=
  match i with
  | .powerOn run break0 break1 => Sys2Proof.Machine.execPowerOn run break0 break1 s
  | .reset run break0 break1 => Sys2Proof.Machine.execReset run break0 break1 s
  | .fetch p clocks => Sys2Proof.Machine.execFetch p clocks s
  | .malformedFrame p frame => Sys2Proof.Machine.execMalformedFrame p frame s
  | .enrol p reel slot gauge home => Sys2Proof.Machine.execEnrol p reel slot gauge home s
  | .retire p reel => Sys2Proof.Machine.execRetire p reel s
  | .recallReel p reel => Sys2Proof.Machine.execRecall p reel s
  | .take p reel => Sys2Proof.Machine.execTake p reel s
  | .withdraw p reel => Sys2Proof.Machine.execWithdraw p reel s
  | .mounted p reel => Sys2Proof.Machine.execMounted p reel s
  | .release p reel => Sys2Proof.Machine.execRelease p reel s
  | .returnReel p reel => Sys2Proof.Machine.execReturnReel p reel s
  | .readReel p reel => Sys2Proof.Machine.execReadReel p reel s
  | .listReels p index count => Sys2Proof.Machine.execListReels p index count s
  | .restingTimerExpiry reel => Sys2Proof.Machine.execRestingTimerExpiry reel s
  | .threadingTimerExpiry reel => Sys2Proof.Machine.execThreadingTimerExpiry reel s
  | .exposureMinute reel => Sys2Proof.Machine.execExposureMinute reel s
  | .moveDone p reel order => Sys2Proof.Machine.execMoveDone p reel order s
  | .moveFailed p reel order => Sys2Proof.Machine.execMoveFailed p reel order s
  | .moveWaitExpiry reel => Sys2Proof.Machine.execMoveWaitExpiry reel s
  | .locate p reel placeKind place => Sys2Proof.Machine.execLocate p reel placeKind place s
  | .slotReport p slot content reel => Sys2Proof.Machine.execSlotReport p slot content reel s
  | .blockSlot p slot => Sys2Proof.Machine.execBlockSlot p slot s
  | .unblockSlot p slot => Sys2Proof.Machine.execUnblockSlot p slot s
  | .readSlots p area first count => Sys2Proof.Machine.execReadSlots p area first count s
  | .perfEdge t time dir => Sys2Proof.Machine.execPerfEdge t time dir s
  | .encoderStep t sense => Sys2Proof.Machine.execEncoderStep t sense s
  | .breakAsserted t => Sys2Proof.Machine.execBreakAsserted t s
  | .reverseEdge t => Sys2Proof.Machine.execReverseEdge t s
  | .setSpeed p code => Sys2Proof.Machine.execSetSpeed p code s
  | .clearBreak p breakNow => Sys2Proof.Machine.execClearBreak p breakNow s
  | .startPass p kind f0 endFrame => Sys2Proof.Machine.execStartPass p kind f0 endFrame s
  | .endPass p tail => Sys2Proof.Machine.execEndPass p tail s
  | .closePass p => Sys2Proof.Machine.execClosePass p s
  | .verificationWalk w => Sys2Proof.Machine.execVerificationWalk w s
  | .readPass p transport => Sys2Proof.Machine.execReadPass p transport s
  | .reportDefect p reel f span kind severity noteGiven note => Sys2Proof.Machine.execReportDefect p reel f span kind severity noteGiven note s
  | .claim p entry => Sys2Proof.Machine.execClaim p entry s
  | .unclaim p entry => Sys2Proof.Machine.execUnclaim p entry s
  | .reportRepair p entry => Sys2Proof.Machine.execReportRepair p entry s
  | .deferEntry p entry => Sys2Proof.Machine.execDeferEntry p entry s
  | .readDefects p reel index count => Sys2Proof.Machine.execReadDefects p reel index count s
  | .purgeVerified p reel => Sys2Proof.Machine.execPurgeVerified p reel s
  | .markSplice p reel f => Sys2Proof.Machine.execMarkSplice p reel f s
  | .removeFrames p reel f n => Sys2Proof.Machine.execRemoveFrames p reel f n s
  | .defectWalk => Sys2Proof.Machine.execDefectWalk s
  | .sceneWalk => Sys2Proof.Machine.execSceneWalk s
  | .setScene p reel start r g b fade hold => Sys2Proof.Machine.execSetScene p reel start r g b fade hold s
  | .deleteScene p reel start hold => Sys2Proof.Machine.execDeleteScene p reel start hold s
  | .setTrim p reel r g b hold => Sys2Proof.Machine.execSetTrim p reel r g b hold s
  | .abandonEdit p => Sys2Proof.Machine.execAbandonEdit p s
  | .lockGrade p reel => Sys2Proof.Machine.execLockGrade p reel s
  | .unlockGrade p reel => Sys2Proof.Machine.execUnlockGrade p reel s
  | .readScenes p reel index count => Sys2Proof.Machine.execReadScenes p reel index count s
  | .previewLights p reel frame => Sys2Proof.Machine.execPreviewLights p reel frame s
  | .clearAlert p code reel => Sys2Proof.Machine.execClearAlert p code reel s
  | .readAlerts p => Sys2Proof.Machine.execReadAlerts p s
  | .suiteMinute => Sys2Proof.Machine.execSuiteMinute s
  | .readSettings p => Sys2Proof.Machine.execReadSettings p s
  | .writeSetting p item zone value => Sys2Proof.Machine.execWriteSetting p item zone value s
  | .writeBackDone answered => Sys2Proof.Machine.execWriteBackDone answered s
  | .fetchNotice p => Sys2Proof.Machine.execFetchNotice p s
  | .clearFlags p mask => Sys2Proof.Machine.execClearFlags p mask s
  | .resetPort p => Sys2Proof.Machine.execResetPort p s
  | .resetAsserted => Sys2Proof.Machine.execResetAsserted s
  | .powerLoss store => Sys2Proof.Machine.execPowerLoss store s

end Sys2Proof.Machine
end

