-- ==== Sys2Proof/Safety.lean ====
section
/-! DEFINITION. The terms in which the statements about the part are written: what a request does to the ports, what
an event does to a reel record and a slot, and the conditions that every step keeps. -/

namespace Sys2Proof.Machine

/-! ### Ports -/

/-- The port holds a reply (R162). -/
def PortState.holdsReply (q : PortState) : Bool :=
  match q.status with
  | .reply _ => true
  | _ => false

/-- A port that has taken a request frame: WORKING, data out idle, a held reply discarded with REPLY_DISCARDED set
(R161, R162, R164). -/
def PortState.taking (q : PortState) : PortState :=
  { q with
    status := .working
    dataOut := []
    flags := { q.flags with discarded := q.flags.discarded || q.holdsReply } }

/-- The ports after port `p` has taken a request frame. -/
def State.taking (s : State) (p : Port) : PerPort PortState := s.ports.set p (s.port p).taking

/-- The ports after a reply has been placed at port `p`: its header shows the port's queue and flags, and the board
(R165). -/
def withReply (p : Port) (code : ResultCode) (body : Bytes) (alerts : List Alert) (ports : PerPort PortState) :
    PerPort PortState :=
  ports.set p { ports.get p with
    status := .reply
      { code := code
        notices := (ports.get p).noticeCount
        alerts := alerts.length
        lead := alerts.head?.map (·.code)
        flags := (ports.get p).flags
        body := body } }

/-- The state after port `p` has taken a request frame. -/
def State.took (s : State) (p : Port) : State := { s with ports := s.taking p }

/-- The state after a reply has been placed at port `p`. -/
def State.replied (s : State) (p : Port) (code : ResultCode) (body : Bytes) : State :=
  { s with ports := withReply p code body s.alerts s.ports }

/-- The ports after a request of port `p` that places no notice and changes no alert. -/
def State.answered (s : State) (p : Port) (code : ResultCode) (body : Bytes) : PerPort PortState :=
  withReply p code body s.alerts (s.taking p)

/-- The whole effect of a request that changes no record: the reply alone. -/
def State.replying (s : State) (p : Port) (code : ResultCode) (body : Bytes) : State :=
  { s with ports := s.answered p code body }

/-- The ports after a notice for port `p` has been placed or dropped (R167, R168). -/
def addNotice (p : Port) (n : Notice) (ports : PerPort PortState) : PerPort PortState :=
  ports.set p ((ports.get p).placeNotice n)

/-- The ports after a notice for all six has been placed or dropped in each (R167). -/
def addNoticeAll (n : Notice) (ports : PerPort PortState) : PerPort PortState :=
  ⟨ports.p0.placeNotice n, ports.p1.placeNotice n, ports.p2.placeNotice n, ports.p3.placeNotice n,
    ports.p4.placeNotice n, ports.p5.placeNotice n⟩

/-- The port of a command that reaches the part through a station port. -/
def portOf (i : Instr) : Option Port :=
  match i with
  | .fetch p _ => some p
  | .malformedFrame p frame => if frame = [] then none else some p
  | i => i.request.map (·.1)

/-- The kinds of request that each port may send, as the columns of the table of R171 give them. -/
def roleOf : Port → List ReqKind
  | .p0 => transportRole
  | .p1 => transportRole
  | .p2 => benchRole
  | .p3 => benchRole
  | .p4 =>
    [.enrol, .readReel, .listReels, .retire, .recallReel, .returnReel, .readSlots, .readPass, .deferEntry,
     .purgeVerified, .readDefects, .setScene, .deleteScene, .setTrim, .abandonEdit, .lockGrade, .unlockGrade,
     .readScenes, .previewLights, .clearAlert, .readAlerts, .readSettings, .writeSetting, .fetchNotice,
     .clearFlags, .resetPort]
  | .p5 =>
    [.enrol, .readReel, .listReels, .retire, .moveDone, .moveFailed, .locate, .slotReport, .blockSlot,
     .unblockSlot, .readSlots, .readPass, .readDefects, .readScenes, .previewLights, .clearAlert, .readAlerts,
     .readSettings, .writeSetting, .fetchNotice, .clearFlags, .resetPort]
where
  /-- P0 and P1 -/
  transportRole : List ReqKind :=
    [.enrol, .readReel, .listReels, .recallReel, .returnReel, .take, .mounted, .release, .withdraw, .readSlots,
     .setSpeed, .clearBreak, .startPass, .endPass, .closePass, .readPass, .reportDefect, .readDefects,
     .readScenes, .previewLights, .clearAlert, .readAlerts, .readSettings, .fetchNotice, .clearFlags, .resetPort]
  /-- P2 and P3 -/
  benchRole : List ReqKind :=
    [.enrol, .readReel, .listReels, .recallReel, .returnReel, .take, .mounted, .release, .withdraw, .readSlots,
     .readPass, .reportDefect, .claim, .unclaim, .reportRepair, .deferEntry, .purgeVerified, .readDefects,
     .markSplice, .removeFrames, .readScenes, .previewLights, .clearAlert, .readAlerts, .readSettings,
     .fetchNotice, .clearFlags, .resetPort]

/-! ### Reels -/

/-- The reel ID names the record in place `i` of an ordered reel table (R1). -/
abbrev State.names (s : State) (reel i : Nat) (r : Reel) : Prop :=
  tableOrdered s.reels ∧ s.findReel reel = some (i, r)

/-- Port `p` is one of P0 to P3, which may hold a reel (R3). -/
abbrev holderPort (p : Port) : Prop := p ≠ .p4 ∧ p ≠ .p5

/-- The reel table in which place `i` holds `r` and port `p` stands in no queue of the other places (R12). -/
def reelsGranted (p : Port) (i : Nat) (r : Reel) (reels : Table Reel) : Table Reel :=
  reels.map (fun e =>
    if e.1 = i then (i, r) else (e.1, { e.2 with waiters := e.2.waiters.filter (fun q => q ≠ p) }))

/-- The ports after port `p` has left the queues of the reels outside place `i`, a QUEUE_DROPPED notice for each in
the order of the record index (R12). -/
def portsLeaving (p : Port) (i : Nat) (reels : Table Reel) (ports : PerPort PortState) : PerPort PortState :=
  (reels.filter (fun e => e.1 ≠ i && e.2.waiters.contains p)).foldl
    (fun ports e => addNotice p (.queueDropped e.2.id .grantedOther) ports) ports

/-- The state in which the reel `r` of place `i` has been granted to port `p` (R12). -/
def State.granting (s : State) (p : Port) (i : Nat) (r : Reel) : State :=
  { s with
    reels := reelsGranted p i
      { r with
        custody := .granted p s.settings.threading
        waiters := r.waiters.filter (fun q => q ≠ p)
        lapsed := if r.lapsed = some p then none else r.lapsed } s.reels
    ports := portsLeaving p i s.reels s.ports }

/-- The state in which the reel `r` of place `i` has become READY: with an empty queue it stays so, else its head is
granted with a GRANTED notice (R12). -/
def State.readied (s : State) (i : Nat) (r : Reel) : State :=
  match r.waiters with
  | [] => { s with reels := tablePut s.reels i { r with custody := .ready } }
  | p :: _ =>
    { s.granting p i r with
      ports := addNotice p (.granted r.id s.settings.threading) (portsLeaving p i s.reels s.ports) }

/-- The state in which the reel `r` of place `i` has become RESTING with the full preset of its zone, or READY with a
preset of 0, its exposure seconds at 0 (R8, R10). -/
def State.rested (s : State) (i : Nat) (r : Reel) : State :=
  if zonePreset s.settings r.zone = 0 then s.readied i { r with exposureSeconds := 0 }
  else
    { s with
      reels := tablePut s.reels i
        { r with custody := .resting (60 * zonePreset s.settings r.zone), exposureSeconds := 0 } }

/-- The reel record after the reel has left slot `n`: the home slot stays its current slot, any other slot that was
its current slot becomes its previous slot (R27, R35, R37). -/
def Reel.leaving (r : Reel) (n : Nat) : Reel :=
  if r.home = some n then r
  else if r.current = some n then { r with current := none, previous := some n }
  else r

/-- Slot `n` after the reel has left it: AWAY when it is the home slot, else FREE, or BLOCKED in no zone
(R27, R35, R37). -/
def Reel.slotLeft (r : Reel) (g : Settings) (n : Nat) : Slot :=
  if r.home = some n then .away r.id else emptiedSlot g n

/-- The reel record on entry to SHELVED (R8, R19, R20). -/
def Reel.shelving (r : Reel) : Reel :=
  { r with custody := .shelved, rack := none, exposure := 0, exposureSeconds := 0, overexposed := false }

/-- A table with the place that an optional number names emptied. -/
def erasePlace {α : Type} (m : Table α) (k : Option Nat) : Table α :=
  match k with
  | some k => tableErase m k
  | none => m

/-- The state in which the reel `r` of place `i` has become SHELVED in slot `n`: the rack position and its order are
freed, the condition alerts of the reel go, and each port of its queue is told (R8, R9, R20, R28, R31, R36). -/
def State.stored (s : State) (i n : Nat) (r : Reel) : State :=
  let base : State :=
    { s with
      slots := tablePut s.slots n (.occupied r.id)
      rack := erasePlace s.rack r.rack
      orders := erasePlace s.orders r.rack
      reels := tablePut s.reels i { r.shelving with current := some n } }
  let t := if r.overexposed then removeAlert .exposureLimit (some r.id) none base else base
  let u := if r.inFault then removeAlert .moveFault (some r.id) none t else t
  { u with
    reels := tablePut s.reels i { r.shelving with current := some n, waiters := [] }
    ports := r.waiters.foldl (fun ports p => addNotice p (.queueDropped r.id .shelved) ports) u.ports }

/-- The reel record after every slot but `n` has given the reel up: a current slot that named it is its previous slot
(R27, R38, R39). -/
def Reel.gathered (r : Reel) (s : State) (n : Nat) : Reel :=
  match r.current with
  | some m =>
    if m ≠ n ∧ (s.slotAt m).occupant = some r.id then { r with current := none, previous := some m } else r
  | none => r

/-- The slots after every slot but `n` has given the reel up (R27, R38, R39). -/
def slotsGathered (g : Settings) (reel n : Nat) (slots : Table Slot) : Table Slot :=
  slots.map (fun e => if e.1 ≠ n ∧ e.2.occupant = some reel then (e.1, emptiedSlot g e.1) else e)

/-- The state in which the order `o` of the reel `r` of place `i`, on rack position `k`, has failed: the order is
FAULTED, the reel in MOVE_FAULT with the alert raised, and an inbound destination gives up its reservation
(R9, R37). -/
def State.faulted (s : State) (i k : Nat) (r : Reel) (o : MoveOrder) : State :=
  let t := raiseAlert .moveFault (some r.id) none
    { s with
      orders := tablePut s.orders k { o with state := .faulted }
      reels := tablePut s.reels i { r with custody := .moveFault o.dir } }
  match o.dir with
  | .outbound => t
  | .inbound =>
    { t with
      slots := tablePut s.slots o.dest (r.slotLeft s.settings o.dest)
      reels := tablePut s.reels i { r.leaving o.dest with custody := .moveFault .inbound } }

/-- The table holds records of places below a limit, in rising order. -/
abbrev tableWithin {α : Type} (limit : Nat) (m : Table α) : Prop := tableOrdered m ∧ ∀ e ∈ m, e.1 < limit

/-- The reel table: 48 places, no ID twice and no ID 0 (R1). -/
abbrev State.reelTableOk (s : State) : Prop :=
  tableWithin Config.reelPlaces s.reels ∧ s.reels.Pairwise (fun a b => a.2.id ≠ b.2.id) ∧
    ∀ e ∈ s.reels, e.2.id ≠ 0

/-- The counts of every reel that is not RENUMBERING are those of its list (R102, R121). -/
abbrev State.countsOk (s : State) : Prop :=
  ∀ e ∈ s.reels, e.2.renumbering = false →
    e.2.openCount = countOpen e.2.defects ∧ e.2.blockingCount = countBlocking e.2.defects

/-- The pending renumber, if any, names a reel of the table, and that reel alone is RENUMBERING (R118, R125). -/
abbrev State.renumberOk (s : State) : Prop :=
  match s.pendingRenumber with
  | some w => (∃ e ∈ s.reels, e.2.id = w.reel) ∧ ∀ e ∈ s.reels, e.2.renumbering = decide (e.2.id = w.reel)
  | none => ∀ e ∈ s.reels, e.2.renumbering = false

/-! ### Custody, the rack, the slots and the claims -/

/-- Two reels have no holder in common, and a holder is one of P0 to P3 (R3). -/
abbrev State.holdersOk (s : State) : Prop :=
  (∀ e ∈ s.reels, ∀ p ∈ e.2.custody.holder, holderPort p) ∧
    s.reels.Pairwise (fun a b => ∀ p ∈ a.2.custody.holder, b.2.custody.holder ≠ some p)

/-- The custody states in which the wait queue is empty (R7, R8, R12, R13, R18). -/
def Custody.noQueue : Custody → Bool
  | .shelved => true
  | .ready => true
  | .inbound => true
  | .moveFault .inbound => true
  | _ => false

/-- Every wait queue: at most three distinct ports of P0 to P3, none of which holds a reel; empty in the states that
take no queue and while the reel is OVEREXPOSED (R3, R11, R12, R13, R20). -/
abbrev State.waitersOk (s : State) : Prop :=
  ∀ e ∈ s.reels, e.2.waiters.length ≤ Config.waitPlaces ∧ e.2.waiters.Nodup ∧
    (∀ p ∈ e.2.waiters, holderPort p ∧ ∀ f ∈ s.reels, f.2.custody.holder ≠ some p) ∧
    (e.2.custody.noQueue = true ∨ e.2.overexposed = true → e.2.waiters = [])

/-- A CLAIMED entry is claimed by the holder of its reel (R105, R107). -/
abbrev State.claimsOk (s : State) : Prop :=
  ∀ e ∈ s.reels, ∀ d ∈ e.2.defects, ∀ p ∈ d.state.claimant, e.2.custody.holder = some p

/-- The rest rack and the reel records name each other, and a reel has a position exactly outside SHELVED
(R2, R28). -/
abbrev State.rackOk (s : State) : Prop :=
  tableWithin Config.rackPositions s.rack ∧
    (∀ e ∈ s.reels, (∀ k ∈ e.2.rack, tableGet s.rack k = some e.2.id) ∧ (e.2.rack = none ↔ e.2.custody = .shelved)) ∧
    ∀ x ∈ s.rack, ∃ e ∈ s.reels, e.2.id = x.2 ∧ e.2.rack = some x.1

/-- The move order that a custody state asks for on the reel's rack position: its direction, and whether it waits
(R31, R37). -/
def Custody.order : Custody → Option (Direction × Bool)
  | .outbound => some (.outbound, true)
  | .inbound => some (.inbound, true)
  | .moveFault d => some (d, false)
  | _ => none

/-- The order waits for its completion (R31). -/
def OrderState.isWaiting : OrderState → Bool
  | .waiting _ => true
  | .faulted => false

/-- The order of a reel: its last number, between its rack position and, but after an inbound fault, its current slot
(R31, R37). -/
abbrev MoveOrder.isOf (o : MoveOrder) (k : Nat) (r : Reel) (dir : Direction) (waits : Bool) : Prop :=
  o.reel = r.id ∧ o.number = r.lastOrder ∧ 1 ≤ o.number ∧ o.number ≤ 255 ∧ o.dir = dir ∧ o.state.isWaiting = waits ∧
    match dir, waits with
    | .outbound, _ => o.dest = k ∧ r.current = some o.source
    | .inbound, true => o.source = k ∧ r.current = some o.dest
    | .inbound, false => o.source = k

/-- The move order table holds exactly the orders of the reels in OUTBOUND, INBOUND and MOVE_FAULT (R31). -/
abbrev State.ordersOk (s : State) : Prop :=
  tableWithin Config.rackPositions s.orders ∧
    (∀ e ∈ s.reels, ∀ x ∈ e.2.custody.order, ∃ k ∈ e.2.rack, ∃ o ∈ tableGet s.orders k, o.isOf k e.2 x.1 x.2) ∧
    ∀ x ∈ s.orders, ∃ e ∈ s.reels, e.2.rack = some x.1 ∧ e.2.custody.order ≠ none

/-- The state of the current slot of a reel, in each custody state (R2, R26, R35, R36, R37). -/
def Reel.currentSlot (r : Reel) (n : Nat) : Slot :=
  match r.custody with
  | .shelved => .occupied r.id
  | .outbound => .occupied r.id
  | .moveFault .outbound => .occupied r.id
  | .inbound => .reserved r.id
  | _ => if r.home = some n then .away r.id else .unknown

/-- The reel stands in, leaves or is coming to a slot (R2). -/
def Custody.needsSlot : Custody → Bool
  | .shelved => true
  | .outbound => true
  | .moveFault .outbound => true
  | .inbound => true
  | _ => false

/-- A reel that stands in, leaves or is coming to a slot has a current slot (R2). -/
abbrev State.currentOk (s : State) : Prop :=
  ∀ e ∈ s.reels, e.2.custody.needsSlot = true → e.2.current ≠ none

/-- The slot table and the current slots agree: a slot that names a reel of the table is its current slot and in the
state that its custody asks for; no ID is named by two slots; and a store found lost holds no reel
(R2, R26, R27, R31, R175). -/
abbrev State.slotsOk (s : State) : Prop :=
  tableWithin Config.slotPlaces s.slots ∧ (∀ x ∈ s.slots, x.2 ≠ .unknown) ∧
    s.slots.Pairwise (fun a b => ∀ id ∈ a.2.occupant, b.2.occupant ≠ some id) ∧
    (∀ e ∈ s.reels,
      (∀ n ∈ e.2.current, s.slotAt n = e.2.currentSlot n ∧ s.slotAt n ≠ .unknown) ∧
      (∀ x ∈ s.slots, x.2.occupant = some e.2.id → e.2.current = some x.1)) ∧
    (s.lostMark = true → s.phase ≠ .running ∧ s.reels = [] ∧ ∀ x ∈ s.slots, x.2 = .blocked)

/-- A reel that is RENUMBERING is HELD by a repair bench (R117, R126). -/
abbrev State.renumberHeld (s : State) : Prop :=
  ∀ e ∈ s.reels, e.2.renumbering = true → e.2.custody = .held .p2 ∨ e.2.custody = .held .p3

/-- The agreement of custody with holders, queues, claims, the rack, the orders and the current slots. -/
abbrev State.custodyForm (s : State) : Prop :=
  s.reelTableOk ∧ s.renumberOk ∧ s.holdersOk ∧ s.waitersOk ∧ s.claimsOk ∧ s.rackOk ∧ s.ordersOk ∧
    s.currentOk ∧ s.renumberHeld

/-! ### Passes and units -/

/-- The pass and the unit of a transport agree: a pass names a reel that the paired port holds HELD, not RENUMBERING,
its grade locked for a GRADED pass, the unit has the figures of that reel and the registration state of the pass, and
a unit without a pass is IDLE (R49, R50, R51, R70, R71, R72, R88). -/
abbrev State.passOk (s : State) (t : Transport) : Prop :=
  (s.pass t = none → (s.unit t).state = .idle) ∧
  ∀ q ∈ s.pass t,
    (∃ e ∈ s.reels, e.2.id = q.reel ∧ e.2.custody = .held (pairedPort t) ∧ e.2.renumbering = false ∧
      (q.kind = .graded → e.2.gradeLocked = true) ∧
      ∃ run ∈ (s.unit t).run, run.reel = q.reel ∧ run.gauge = e.2.gauge ∧ run.f0 = q.f0) ∧
    (match q.state with
      | .armed => (s.unit t).state = .armed
      | .running => (s.unit t).state = .locked ∨ (s.unit t).state = .reacquire
      | .ended => (s.unit t).state = .idle
      | .closing => (s.unit t).state = .idle ∧ q.kind = .inspect ∧ q.reason = some .complete)

/-- The pass and the unit of each transport agree (R70). -/
abbrev State.passesOk (s : State) : Prop := ∀ t, s.passOk t

/-! ### Scene lists -/

/-- A scene list is strictly increasing by start frame (R130). -/
abbrev scenesRise (cs : List Scene) : Prop := cs.Pairwise (fun a b => a.start < b.start)

/-- The scene lists: at most 512 scenes, strictly increasing, counted truly, below a confirmed frame count, each in its
own place of the 2048 of the pool; and the list that a pending scene walk is going to leave is strictly increasing
too (R88, R122, R130, R139). -/
abbrev State.scenesOk (s : State) : Prop :=
  (s.allScenes.map (·.place)).Nodup ∧ (∀ c ∈ s.allScenes, c.place < Config.scenePlaces) ∧
    ∀ e ∈ s.reels, e.2.scenes.length ≤ Config.reelScenes ∧ e.2.sceneCount = e.2.scenes.length ∧ scenesRise e.2.scenes ∧
      (e.2.renumbering = false → e.2.countConfirmed = true →
        ∀ n ∈ e.2.frameCount, ∀ c ∈ e.2.scenes, c.start < n) ∧
      (e.2.renumbering = true → ∀ w ∈ s.pendingRenumber, scenesRise (walkScenes w e.2.scenes))

/-- The generation bits: outside a renumbering every entry and scene carries the bit of its reel, and once the defect
walk has been made every entry carries the target (R119, R127). -/
abbrev State.generationsOk (s : State) : Prop :=
  ∀ e ∈ s.reels,
    (e.2.renumbering = false →
      (∀ d ∈ e.2.defects, d.generation = e.2.generation) ∧ ∀ c ∈ e.2.scenes, c.generation = e.2.generation) ∧
    (e.2.renumbering = true → ∀ w ∈ s.pendingRenumber, ∀ k ∈ s.renumberWork, k.stage = .sceneWalk →
      ∀ d ∈ e.2.defects, d.generation = w.target)

/-! ### A store changed from outside -/

/-- The contents that a loss of power leaves in the store in place of its own (R174, R175). -/
def storeContents : StoreLoss → Option Retained
  | .kept => none
  | .changed c _ => some c

/-- The contents that a command brings into the retained store from outside the rules (R174, R178). -/
def storeBrought : Instr → Option Retained
  | .powerLoss store => storeContents store
  | .powerOn ⟨_, some ⟨_, .powerLoss store⟩⟩ _ _ => storeContents store
  | .reset ⟨_, some ⟨_, .powerLoss store⟩⟩ _ _ => storeContents store
  | _ => none

/-- The state with other contents in the retained store, and no renumbering at work. -/
def State.storing (s : State) (c : Retained) : State :=
  { s with
    reels := c.reels
    slots := c.slots
    rack := c.rack
    orders := c.orders
    pendingRenumber := c.pendingRenumber
    lostMark := c.lostMark
    renumberWork := none }

/-- What the command in front brings into the retained store, if anything, has a form. The rules keep every form, but
contents that change while supply power is off and still match their check value may be any (R175). -/
abbrev State.brings (s : State) (form : State → Prop) : Prop :=
  ∀ i ∈ s.pending.head?, ∀ c ∈ storeBrought i, form (s.storing c)

/-! ### The board -/

/-- The alert board: at most 24 alerts with BOARD_FULL among them or 23 without, no code and reel twice, each raise
count 1 to 255, BOARD_FULL naming no reel (R151, R153, R154). -/
abbrev boardOk (b : List Alert) : Prop :=
  (b.filter (fun a => a.code ≠ .boardFull)).length ≤ Config.boardAlerts ∧
  b.Pairwise (fun x y => ¬(x.code = y.code ∧ x.reel = y.reel)) ∧
  (∀ a ∈ b, 1 ≤ a.count ∧ a.count ≤ 255) ∧
  (∀ a ∈ b, a.code = .boardFull → a.reel = none)

/-- BOARD_FULL stands on the board only as its last alert (R151). -/
abbrev boardFullLast (b : List Alert) : Prop := ∀ a ∈ b.dropLast, a.code ≠ .boardFull

/-! ### Queues -/

/-- A notice queue: at most 15 entries of ordinary notices, and a marker that counts 1 to 255 drops (R167, R168). -/
abbrev PortState.queueOk (q : PortState) : Prop :=
  entriesTaken q.notices ≤ Config.noticeEntries ∧ ∀ m ∈ q.marker, 1 ≤ m.drops ∧ m.drops ≤ 255

/-- Every port's queue keeps the limits of R167 and R168. -/
abbrev State.queuesOk (s : State) : Prop := ∀ p, (s.port p).queueOk

/-! ### Boundaries -/

/-- The state after the running pass of a transport has missed the boundary of frame `f`: the highest boundary, the
missed counter, and a MISSED_CAPTURE detection (R75, R77). -/
def State.missedAt (s : State) (t : Transport) (f : Nat) : State :=
  match s.pass t with
  | none => s
  | some p =>
    if p.state = .running then
      raiseForPass t p.reel f .missedCapture
        { s with passes := s.passes.set t (some { p with highest := some f, missed := min 65535 (p.missed + 1) }) }
    else s

/-- The state after `n` boundaries from that of frame `f` on have been missed, in rising order (R59, R77). -/
def State.missedFrom (s : State) (t : Transport) (f n : Nat) : State :=
  (List.range n).foldl (fun u j => u.missedAt t (f + j)) s

/-- The state after the running pass of a transport has captured frame `f`: one pulse on CAPTURE, the tag after the tags
before it on TAG, and the counters (R75, R76, R80, R82). -/
def State.capturedAt (s : State) (t : Transport) (f : Nat) (mark : Bool) : State :=
  match s.pass t with
  | none => s
  | some p =>
    { s with
      lines := s.lines.set t
        { s.line t with
          capturePulses := (s.line t).capturePulses + 1
          tags := (s.line t).tags ++ [frameTag t p f (mark || p.carriedMark) s] }
      passes := s.passes.set t
        (some { p with
          highest := some f, lastCaptured := some f, captured := min 65535 (p.captured + 1), misses := 0,
          carriedMark := false }) }

/-- The state after the running pass of a transport has skipped the capture of frame `f`: the frame missed, the mark
kept for the next capture, and at the third miss in a run the set speed code lowered with OVERSPEED (R76, R77, R78, R80). -/
def State.skippedAt (s : State) (t : Transport) (f : Nat) (mark : Bool) : State :=
  match s.pass t with
  | none => s
  | some p =>
    let marked : Pass := { p with carriedMark := p.carriedMark || mark }
    let missed := { s with passes := s.passes.set t (some marked) }.missedAt t f
    let q := (missed.pass t).getD p
    if p.misses + 1 < 3 then { missed with passes := missed.passes.set t (some { q with misses := p.misses + 1 }) }
    else
      { raiseAlert .overspeed (some p.reel) (some (.transport t))
          { missed with units := missed.units.set t { missed.unit t with setCode := (s.unit t).setCode - 1 } } with
        passes := missed.passes.set t (some { q with misses := 0 }) }

/-- The state after the pass of a transport has ended COMPLETE at its end frame: the unit IDLE with its figures kept,
and the paired port told (R50, R75, R83, R85). -/
def State.endedComplete (s : State) (t : Transport) : State :=
  match s.pass t with
  | none => s
  | some q =>
    let q' : Pass := { q with state := .ended, reason := some .complete, tail := some false }
    { s with
      units := s.units.set t { s.unit t with state := .idle }
      passes := s.passes.set t (some q')
      ports := addNotice (pairedPort t) (.passEnded t q') s.ports }

/-- The state after an edge that captures nothing has passed the boundaries of the frames above `old` up to `new`: each
is missed, and the boundary of the end frame ends the pass (R59, R75, R77). -/
def State.missedBetween (s : State) (t : Transport) (old new : Nat) : State :=
  match (s.pass t).bind (fun p => if p.state = .running then p.endFrame else none) with
  | some e =>
    if old < e ∧ e ≤ new then (s.missedFrom t (old + 1) (e - old)).endedComplete t
    else s.missedFrom t (old + 1) (new - old)
  | none => s.missedFrom t (old + 1) (new - old)

/-! ### Settings -/

/-- A zone record within its ranges (10 section 10.2). -/
abbrev zoneInRange (z : Zone) : Prop := z.first ≤ 1023 ∧ z.last ≤ 1023 ∧ z.preset ≤ 240 ∧ z.limit ≤ 2880

/-- A camera cycle time within its range (10 section 10.2). -/
abbrev cycleInRange (v : Nat) : Prop := v = 0 ∨ (2000 ≤ v ∧ v ≤ 100000)

/-- Every item of the image lies in its range (10 section 10.2, R176). -/
abbrev settingsInRange (g : Settings) : Prop :=
  tableWithin Config.zoneRecords g.zones ∧ (∀ e ∈ g.zones, zoneInRange e.2) ∧
  cycleInRange g.cycle0 ∧ cycleInRange g.cycle1 ∧
  (50 ≤ g.shrinkLimit ∧ g.shrinkLimit ≤ 1000) ∧ g.gentle ≤ 7 ∧
  (30 ≤ g.threading ∧ g.threading ≤ 3600) ∧ (30 ≤ g.firstWait ∧ g.firstWait ≤ 720) ∧ g.reissue ≤ 7

/-! ### A stopped part -/

/-- Nothing works in a stopped part: every port is closed with its reply, queue and flags lost, the board is empty, no
pass is open, the units are IDLE and no line is driven (R172, R178). -/
abbrev State.atRest (s : State) : Prop :=
  (∀ p, s.port p = .shut) ∧ s.alerts = [] ∧ s.passes = .const none ∧ s.heldEdits = none ∧
  s.writeBack = none ∧ s.heldWrite = none ∧ s.renumberWork = none ∧
  (∀ t, (s.unit t).state = .idle ∧ (s.line t).capturePulses = 0 ∧ (s.line t).tags = [])

/-- A running part has every port open, and a stopped part is at rest (R172, R178). -/
abbrev State.phaseOk (s : State) : Prop :=
  if s.phase = .running then ∀ p, (s.port p).status ≠ .closed else s.atRest

/-! ### Transports -/

/-- The set speed code of each unit lies in 0 to 7 (R48, R63). -/
abbrev State.speedOk (s : State) : Prop := ∀ t, (s.unit t).setCode ≤ 7

end Sys2Proof.Machine
end

