-- ==== Sys2Proof/Certificates/Slice0/Obligations.lean ====
section
/-! DEFINITION. The statements for the provers, in the order of OBLIGATIONS.json. A `stated` one formalises the rule
that its entry quotes; a `derived` one names in its docstring the rules and, where it rests on a choice of the model,
the log entry. -/

section Statements

open Sys2Proof Sys2Proof.Machine

/-! ### The queue and the ports -/

/-- One step takes the command at the front of the queue and executes it with the queue's rest. -/
def Obligations.StepTakesFront : Prop :=
  ∀ (c : Instr) (rest : List Instr) (s : State),
    step { s with pending := c :: rest } = exec c { s with pending := rest }

/-- Every command of the table completes in every state, and none touches the commands that wait behind it (the
spec gives the part no state in which it stops). -/
def Obligations.EveryCommandCompletes : Prop :=
  ∀ (c : Instr) (s : State), ∃ t, exec c s = .next t ∧ t.pending = s.pending

/-- A frame, fetch or request alike, that reaches a closed port has no effect at all (R172). A frame, fetch or
request alike, that reaches a WORKING port sets FRAME_IGNORED and has no other effect (R164). -/
def Obligations.FramesIgnored : Prop :=
  (∀ (c : Instr) (p : Port) (s : State), portOf c = some p → (s.port p).status = .closed → exec c s = .next s) ∧
  (∀ (c : Instr) (p : Port) (s : State), portOf c = some p → (s.port p).status = .working →
     exec c s = .next
       { s with
         ports := s.ports.set p
           { s.port p with dataOut := [], flags := { (s.port p).flags with ignored := true } } })

/-- A request outside the role of its port is answered NOT_PERMITTED and changes no state of any block (R163,
R171). -/
def Obligations.RoleRefused : Prop :=
  ∀ (c : Instr) (p : Port) (k : ReqKind) (args : List Nat) (s : State),
    c.request = some (p, k, args) → s.rdy p = true → k ∉ roleOf p →
    exec c s = .next (s.replying p .notPermitted [])

/-- FETCH: in IDLE the no-reply header is sent and nothing else changes; in REPLY the held reply is sent, header
then body, and it is read, the port becoming IDLE, exactly when its last byte has been clocked out (R163, R180).
A malformed frame is answered BAD_REQUEST by the port and changes no state of any block; a select frame with no
byte is ignored (R161, R163). Data out is at its idle level, bytes of 255, in the first three bytes of every
frame, in every byte of a request frame, of a malformed frame and of a frame that a WORKING port ignores, and
beyond the end of the header and of the reply that a fetch brings (R161, R163, R164, R180). That a cut fetch
frame is a malformed one is the model's choice (log 29). -/
def Obligations.FetchAndMalformed : Prop :=
  (∀ (s : State) (p : Port) (clocks : Nat),
     ((s.port p).status = .idle →
       exec (.fetch p clocks) s = .next
         { s with
           ports := s.ports.set p
             { s.port p with
               dataOut := clockOut
                 ([4, 0, 0] ++ u8 (s.port p).noticeCount ++ u8 s.alerts.length ++
                   u8 ((s.alerts.head?.map (fun a => a.code.code)).getD 255) ++ u8 (s.port p).flags.byte ++ [0])
                 clocks } }) ∧
     (∀ r, (s.port p).status = .reply r →
       exec (.fetch p clocks) s = .next
         { s with
           ports := s.ports.set p
             { s.port p with
               status := if 8 + r.body.length ≤ clocks then .idle else .reply r
               dataOut := clockOut
                 (u8 r.code.code ++ u16 r.body.length ++ u8 r.notices ++ u8 r.alerts ++
                   u8 ((r.lead.map AlertCode.code).getD 255) ++ u8 r.flags.byte ++ [0] ++ r.body)
                 clocks } })) ∧
  (∀ (s : State) (p : Port) (frame : Bytes),
     (frame = [] → exec (.malformedFrame p frame) s = .next s) ∧
     (frame ≠ [] → s.rdy p = true → exec (.malformedFrame p frame) s = .next (s.replying p .badRequest []))) ∧
  (∀ (c : Instr) (p : Port) (s : State), portOf c = some p → (s.port p).status ≠ .closed →
     ∃ t, exec c s = .next t ∧
       (∀ j, j < 3 → (t.port p).dataOutByte j = 255) ∧
       ((s.port p).status = .working ∨ (∀ clocks, c ≠ .fetch p clocks) → ∀ j, (t.port p).dataOutByte j = 255) ∧
       ((s.port p).status = .idle → ∀ j, 11 ≤ j → (t.port p).dataOutByte j = 255) ∧
       (∀ r, (s.port p).status = .reply r → ∀ j, 11 + r.body.length ≤ j → (t.port p).dataOutByte j = 255))

/-- The frame check: a frame is malformed exactly when it is no fetch and either its kind byte names no request,
or its body length field differs from the length fixed for its kind, or its body has another length (R161,
R163). Decoding the frame that encodes a command gives the command back, for every well-formed request and every
fetch: no bit of an argument is dropped (R180). In the frame-check clause, that a FETCH kind byte in a frame
that ends before its third byte makes a malformed frame is the model's choice (log 29). The widths of the
arguments rest on log 12. -/
def Obligations.FrameCodec : Prop :=
  (∀ (b : Bool) (p : Port) (frame : Bytes), frame ≠ [] →
     (decodeFrame b p frame = some (.malformedFrame p frame) ↔
       frame.take 3 ≠ [0, 0, 0] ∧
         ∀ k : ReqKind, ∀ body : Bytes, body.length = k.bodyLength →
           frame ≠ u8 k.code ++ u16 k.bodyLength ++ body)) ∧
  (∀ (c : Instr) (frame : Bytes), c.wellFormed → encodeFrame c = some frame → (∀ p f, c ≠ .malformedFrame p f) →
     ∃ p, portOf c = some p ∧ decodeFrame c.breakSample p frame = some c)

/-- A notice is appended when there is no overflow marker and 15 entries leave it room; otherwise it is dropped,
NOTICES_LOST is set, and the marker is placed with its kind and a count of 1 or counts one more, up to 255
(R167, R168). -/
def Obligations.NoticePlacing : Prop :=
  ∀ (q : PortState) (n : Notice), q.status ≠ .closed →
    (q.marker = none → entriesTaken q.notices + n.entries ≤ 15 →
      q.placeNotice n = { q with notices := q.notices ++ [n] }) ∧
    (q.marker = none → 15 < entriesTaken q.notices + n.entries →
      q.placeNotice n =
        { q with marker := some { drops := 1, kind := n.kindCode }, flags := { q.flags with lost := true } }) ∧
    (∀ m, q.marker = some m →
      q.placeNotice n =
        { q with marker := some { m with drops := min 255 (m.drops + 1) }
                 flags := { q.flags with lost := true } })

/-- FETCH_NOTICE takes the notice at the head whole, or the overflow marker once no notice stands before it, or
answers with an empty body; the header counts what is left (R168, R169). Every notice is sent as 8 bytes for
each entry that it takes, with its kind and part in the first byte of each (R167, R181). The bytes of each kind
of notice, its fields in the order of the payload table, bytes unused at 0, and the stage byte of PASS_ENDED:
the stage, the transport, the kind, the end reason, the abort cause and, when CLOSED, the confirmed count
(R181). -/
def Obligations.FetchNoticeSends : Prop :=
  (∀ (s : State) (p : Port), s.rdy p = true →
     (∀ n ns, (s.port p).notices = n :: ns →
       exec (.fetchNotice p) s = .next
         { s with
           ports := withReply p .ok n.bytes s.alerts
             ((s.taking p).set p { (s.taking p).get p with notices := ns }) }) ∧
     (∀ m, (s.port p).notices = [] → (s.port p).marker = some m →
       exec (.fetchNotice p) s = .next
         { s with
           ports := withReply p .ok ([9] ++ u8 m.drops ++ u8 m.kind ++ [0, 0, 0, 0, 0]) s.alerts
             ((s.taking p).set p { (s.taking p).get p with marker := none }) }) ∧
     ((s.port p).notices = [] → (s.port p).marker = none →
       exec (.fetchNotice p) s = .next (s.replying p .ok []))) ∧
  (∀ n : Notice,
     (n.entries = 1 → n.bytes.length = 8 ∧ n.bytes.head? = some (BitVec.ofNat 8 n.kindCode)) ∧
     (n.entries = 2 → n.bytes.length = 16 ∧ n.bytes.head? = some (BitVec.ofNat 8 (n.kindCode + 32)) ∧
       n.bytes[8]? = some (BitVec.ofNat 8 (n.kindCode + 64))) ∧
     (n.entries = 1 ∨ n.entries = 2)) ∧
  (let transport (t : Transport) : Nat := if t = .t0 then 0 else 1
   let code (c : AlertCode) : Bytes := u8 (c.code + if c.isCondition then 128 else 0)
   let stage (t : Transport) (q : Pass) : Nat :=
     2 * transport t + (if q.kind = .graded then 4 else 0) +
       (match q.reason with
         | some .stopped => 8
         | some (.aborted .filmBreak) => 16
         | some (.aborted .registrationFailed) => 16 + 32
         | some (.aborted .reversed) => 16 + 64
         | _ => 0)
   (∀ c, (Notice.start c).bytes = [0] ++
     (match c with
       | .ok => ([0, 0] : Bytes)
       | .degraded lost defaulted => [1] ++ u8 (lost.toNat + 2 * defaulted.toNat)
       | .portReset => [2, 0]) ++ [0, 0, 0, 0, 0]) ∧
   (∀ c (reel : Option Nat) named place, (Notice.alertRaised c reel named place).bytes =
     [1] ++ code c ++ u32 (reel.getD 0) ++
       (match named with
         | none => ([255] : Bytes)
         | some (.transport t) => u8 (transport t)
         | some (.port p) => u8 (portCode p + 2)) ++ u8 place) ∧
   (∀ c (reel : Option Nat) count remover, (Notice.alertCleared c reel count remover).bytes =
     [2] ++ code c ++ u32 (reel.getD 0) ++ u8 count ++
       (match remover with
         | none => ([0] : Bytes)
         | some p => u8 (portCode p + 1))) ∧
   (∀ reel timeout, (Notice.granted reel timeout).bytes = [3] ++ u32 reel ++ u16 timeout ++ [0]) ∧
   (∀ reel, (Notice.lapsed reel).bytes = [4] ++ u32 reel ++ [0, 0, 0]) ∧
   (∀ reel reason, (Notice.queueDropped reel reason).bytes = [5] ++ u32 reel ++
     (match reason with
       | .exposure => ([0] : Bytes)
       | .shelved => [1]
       | .grantedOther => [2]) ++ [0, 0]) ∧
   (∀ reel count, (Notice.renumberDone reel count).bytes = [6] ++ u32 reel ++ u16 count ++ [0]) ∧
   (∀ reel edits cause, (Notice.editAbandoned reel edits cause).bytes = [7] ++ u32 reel ++ u8 edits ++
     (match cause with
       | .otherReel => ([0] : Bytes)
       | .removeFrames => [1]
       | .retire => [2]) ++ [0]) ∧
   (∀ reel, (Notice.gradeUnlocked reel).bytes = [8] ++ u32 reel ++ [0, 0, 0]) ∧
   (∀ o wait, (Notice.moveOrder o wait).bytes =
     u8 (10 + 32) ++ u32 o.reel ++ u8 o.number ++ u8 o.attempt ++ u8 (if o.dir = .outbound then 0 else 1) ++
       u8 (10 + 64) ++ u16 o.source ++ u16 o.dest ++ u16 wait ++ [0]) ∧
   (∀ t q, (Notice.passEnded t q).bytes =
     u8 (11 + 32) ++ u8 (stage t q) ++ u32 q.reel ++ u16 q.number ++
       u8 (11 + 64) ++ u16 q.captured ++ u16 q.missed ++ u16 (q.highest.getD 65535) ++ [0]) ∧
   (∀ t q verified (count : Option Nat) (confirmed : Bool), (Notice.passClosed t q verified count confirmed).bytes =
     u8 (11 + 32) ++ u8 (1 + stage t q + 128 * confirmed.toNat) ++ u32 q.reel ++ u16 q.number ++
       u8 (11 + 64) ++ u16 verified ++ u16 (count.getD 0) ++ u8 count.isSome.toNat ++ [0, 0]))

/-- CLEAR_FLAGS clears the flags that its mask names and leaves every other flag, the overflow marker and every
record as they are; REPLY_DISCARDED may have been set by this very frame (R166). RESET_PORT empties the port's
queue, marker and flags and leaves one START notice with code PORT_RESET; P4's also empties the held-edit
buffer; nothing else changes (R170). -/
def Obligations.FlagsAndPortReset : Prop :=
  (∀ (s : State) (p : Port) (mask : Nat), s.rdy p = true →
     exec (.clearFlags p mask) s = .next
       { s with
         ports := withReply p .ok [] s.alerts ((s.taking p).set p
           { (s.taking p).get p with
             flags :=
               { discarded := ((s.port p).flags.discarded || (s.port p).holdsReply) && !mask.testBit 0
                 ignored := (s.port p).flags.ignored && !mask.testBit 1
                 lost := (s.port p).flags.lost && !mask.testBit 2 } }) }) ∧
  (∀ (s : State) (p : Port), s.rdy p = true →
     exec (.resetPort p) s = .next
       { s with
         heldEdits := if p = .p4 then none else s.heldEdits
         ports := withReply p .ok [] s.alerts (s.ports.set p
         { status := .working, notices := [.start .portReset], marker := none,
           flags := { discarded := false, ignored := false, lost := false }, dataOut := [] }) })

/-! ### Reels and custody (chapter 1) -/

/-- The common checks of a request that names a reel: NO_SUCH_REEL when no record carries the ID, then, but for
READ_REEL, RENUMBERING; each changes no state. They come before the range checks of the reads, the place kind of
LOCATE and the custody, and in REPORT_DEFECT after its enumerated arguments (R1, R4, R104, R111, R148, R149,
R173). That the ranges of READ_DEFECTS and READ_SCENES, and the place kind of LOCATE, are checked after the reel
rests on log 13. -/
def Obligations.ReelLookupFirst : Prop :=
  (∀ (c : Instr) (p : Port) (reel : Nat) (s : State), s.rdy p = true →
    c ∈ [Instr.retire p reel, .recallReel p reel, .take p reel, .withdraw p reel, .mounted p reel, .release p reel,
      .returnReel p reel, .purgeVerified p reel, .lockGrade p reel, .unlockGrade p reel] ∨
      (∃ order, c = .moveDone p reel order ∨ c = .moveFailed p reel order) ∨
      (∃ f n, c = .removeFrames p reel f n ∨ c = .readDefects p reel f n ∨ c = .readScenes p reel f n) ∨
      (∃ f, c = .markSplice p reel f ∨ c = .previewLights p reel f) ∨
      (∃ kind place, c = .locate p reel kind place) ∨
      (∃ f span kind severity noteGiven note, c = .reportDefect p reel f span kind severity noteGiven note ∧
        kind ≤ 9 ∧ (severity = 0 ∨ severity = 1 ∨ severity = 255) ∧ noteGiven ≤ 1) →
    (∃ k args, c.request = some (p, k, args) ∧ k ∈ roleOf p) →
    ((∀ e ∈ s.reels, e.2.id ≠ reel) ∨ reel = 0 → exec c s = .next (s.replying p .noSuchReel [])) ∧
    (∀ i r, s.findReel reel = some (i, r) → r.renumbering = true → exec c s = .next (s.replying p .renumbering []))) ∧
  (∀ (p : Port) (reel : Nat) (s : State), s.rdy p = true → (∀ e ∈ s.reels, e.2.id ≠ reel) ∨ reel = 0 →
    exec (.readReel p reel) s = .next (s.replying p .noSuchReel []))

/-- ENROL, its checks in order and the record that it makes in the lowest empty place (R5); the gauge codes and
the two bytes of the reply, the record index and the custody state, are those of the layouts (R180, R182). That
home is coded no 0 and yes 1, and that a byte above 1 names neither, is the model's choice (log 31): R180 gives
that coding to tail and hold only. -/
def Obligations.EnrolMakesRecord : Prop :=
  ∀ (s : State) (p : Port) (reel slot gauge home : Nat), s.rdy p = true →
    exec (.enrol p reel slot gauge home) s = .next
      (if reel = 0 ∨ 1023 < slot then s.replying p .outOfRange []
       else if 2 < gauge ∨ 1 < home then s.replying p .badRequest []
       else if ∃ e ∈ s.reels, e.2.id = reel then s.replying p .duplicate []
       else match zoneOf s.settings slot with
         | none => s.replying p .wrongState []
         | some zone =>
           if s.slotAt slot ≠ .occupied reel then s.replying p .wrongState []
           else match (List.range 48).find? (fun i => (s.reelAt i).isNone) with
             | none => s.replying p .tableFull []
             | some i =>
               { s with
                 ports := s.answered p .ok (u8 i ++ u8 0)
                 reels := tablePut s.reels i
                   { id := reel, gauge := [Gauge.g35x4, .g35x3, .g16x1].getD gauge .g35x4, zone := zone,
                     home := if home = 1 then some slot else none, current := some slot, previous := none,
                     rack := none, custody := .shelved, waiters := [], lapsed := none, exposure := 0,
                     exposureSeconds := 0, overexposed := false, frameCount := none, countConfirmed := false,
                     pitch := none, shrunk := false, openCount := 0, blockingCount := 0, sceneCount := 0,
                     trim := ⟨0, 0, 0⟩, gradeLocked := false, gradedDone := false, passNumber := 0,
                     inspectCount := 0, lastOrder := 0, renumbering := false, generation := false,
                     defects := [], scenes := [] } })

/-- RETIRE of a SHELVED reel with no counted entry frees its entries, then its scenes, each with the test of its
pool when a place was freed, abandons the edits held for it with a notice to P4, empties its place, and keeps
every slot and every latched alert (R6, R100, R132, R141). The second body byte is the model's reading (log 9);
a pool is tested only when a place was freed (log 24). -/
def Obligations.RetireEmptiesPlace : Prop :=
  ∀ (s : State) (p : Port) (reel i : Nat) (r : Reel), s.rdy p = true → p = .p4 ∨ p = .p5 → s.names reel i r →
    r.renumbering = false →
    (r.custody ≠ .shelved → exec (.retire p reel) s = .next (s.replying p .wrongState [])) ∧
    (r.custody = .shelved → r.openCount ≠ 0 → exec (.retire p reel) s = .next (s.replying p .openDefects [])) ∧
    (r.custody = .shelved → r.openCount = 0 → ∃ t, exec (.retire p reel) s = .next t ∧
      t.reels = s.reels.filter (fun e => e.1 ≠ i) ∧
      t.heldEdits = (if ∃ h ∈ s.heldEdits, h.reel = reel then none else s.heldEdits) ∧
      (∀ a ∈ s.alerts, a.code.isCondition = false → a ∈ t.alerts) ∧
      (∃ q, (t.port p).status = .reply q ∧ q.code = .ok ∧ q.body = u8 i ++ u8 255) ∧
      { t with reels := s.reels, heldEdits := s.heldEdits, alerts := s.alerts, ports := s.ports } = s) ∧
    (r.custody = .shelved → r.openCount = 0 →
      let purged : State :=
        if r.defects = [] then s.took p
        else testDefectPool { s.took p with reels := tablePut s.reels i { r with defects := [] } }
      let freed : State :=
        if r.scenes = [] then purged
        else
          testScenePool
            { purged with reels := tablePut s.reels i { r with defects := [], scenes := [], sceneCount := 0 } }
      let told : State := match s.heldEdits with
        | some h =>
          if h.reel = reel then
            { freed with
              heldEdits := none
              ports := addNotice .p4 (.editAbandoned reel h.edits.length .retire) freed.ports }
          else freed
        | none => freed
      exec (.retire p reel) s = .next
        (({ told with reels := s.reels.filter (fun e => e.1 ≠ i) } : State).replied p .ok (u8 i ++ u8 255)))

/-- RECALL takes the lowest free rack position and makes the reel OUTBOUND with the next move order, told to P5;
a reel that is not SHELVED and a full rack refuse it (R7, R31, R32). -/
def Obligations.RecallIssuesOrder : Prop :=
  ∀ (s : State) (p : Port) (reel i : Nat) (r : Reel), s.rdy p = true → p ≠ .p5 → s.names reel i r →
    r.renumbering = false →
    exec (.recallReel p reel) s = .next
      (if r.custody ≠ .shelved then s.replying p .wrongState []
       else match (List.range 16).find? (fun k => !(s.rack.map (·.1)).contains k) with
         | none => s.replying p .stagingFull []
         | some k =>
           let number := if r.lastOrder < 255 then r.lastOrder + 1 else 1
           let wait := min 720 s.settings.firstWait
           let order : MoveOrder :=
             { reel := reel, number := number, dir := .outbound, source := r.current.getD 0, dest := k, attempt := 1,
               state := .waiting wait }
           { s with
             rack := tablePut s.rack k reel
             orders := tablePut s.orders k order
             reels := tablePut s.reels i { r with custody := .outbound, rack := some k, lastOrder := number }
             ports := withReply p .ok (u8 i ++ u8 1) s.alerts
               (addNotice .p5 (.moveOrder order wait) (s.taking p)) })

/-- TAKE: the checks in order; a READY reel is granted with no notice to its taker, who leaves every other
queue; a reel that another has, or that is on its way, is queued for at the tail, up to three ports (R12, R13).
-/
def Obligations.TakeGrantsOrQueues : Prop :=
  ∀ (s : State) (p : Port) (reel i : Nat) (r : Reel), s.rdy p = true → holderPort p → s.names reel i r →
    r.renumbering = false →
    exec (.take p reel) s = .next
      (if r.custody.holder = some p then s.replying p .ok (u8 i ++ u8 r.custody.code)
       else if ∃ e ∈ s.reels, e.2.custody.holder = some p then s.replying p .holdsOther []
       else if r.overexposed then s.replying p .overExposed []
       else if r.custody = .shelved ∨ r.custody = .inbound ∨ r.inFault then s.replying p .wrongState []
       else if r.custody = .ready then
         { ({ s with ports := s.taking p } : State).granting p i r with
           ports := withReply p .ok (u8 i ++ u8 4) s.alerts (portsLeaving p i s.reels (s.taking p)) }
       else if p ∈ r.waiters then s.replying p .queued (u8 (r.waiters.idxOf p + 1))
       else if 3 ≤ r.waiters.length then s.replying p .queueFull []
       else
         { s with
           reels := tablePut s.reels i { r with waiters := r.waiters ++ [p] }
           ports := s.answered p .queued (u8 (r.waiters.length + 1)) })

/-- WITHDRAW takes the port out of the wait queue and keeps the others in order; it makes no grant; a port that
does not stand in the queue is answered WRONG_STATE (R14). MOUNTED makes the holder's reel HELD and stops its
threading timer; another port is answered LAPSED when it is the lapsed port and NOT_HOLDER otherwise (R16). -/
def Obligations.WithdrawAndMounted : Prop :=
  (∀ (s : State) (p : Port) (reel i : Nat) (r : Reel), s.rdy p = true → holderPort p → s.names reel i r →
     r.renumbering = false →
     exec (.withdraw p reel) s = .next
       (if p ∈ r.waiters then
         { s with
           reels := tablePut s.reels i { r with waiters := r.waiters.filter (fun q => q ≠ p) }
           ports := s.answered p .ok (u8 i ++ u8 r.custody.code) }
        else s.replying p .wrongState [])) ∧
  (∀ (s : State) (p : Port) (reel i : Nat) (r : Reel), s.rdy p = true → holderPort p → s.names reel i r →
     r.renumbering = false →
     exec (.mounted p reel) s = .next
       (if r.custody.holder = some p then
         { s with
           reels := tablePut s.reels i { r with custody := .held p }
           ports := s.answered p .ok (u8 i ++ u8 5) }
        else if r.lapsed = some p then s.replying p .lapsed []
        else s.replying p .notHolder []))

/-- RELEASE by the holder returns its claims to OPEN, removes it and makes the reel READY, which grants the head
of its queue at once; an open pass refuses it (R12, R17, R107). -/
def Obligations.ReleaseReadies : Prop :=
  ∀ (s : State) (p : Port) (reel i : Nat) (r : Reel), s.rdy p = true → holderPort p → s.names reel i r →
    r.renumbering = false →
    exec (.release p reel) s = .next
      (if r.custody.holder = some p then
        if (∃ q, s.passes.t0 = some q ∧ q.reel = reel) ∨ (∃ q, s.passes.t1 = some q ∧ q.reel = reel) then
          s.replying p .passActive []
        else
          let t := ({ s with ports := s.taking p } : State).readied i
            { r with defects := r.defects.map (fun d =>
                if d.state = .claimed p then { d with state := .opened } else d) }
          { t with ports := withReply p .ok (u8 i ++ u8 (if r.waiters = [] then 3 else 4)) s.alerts t.ports }
       else if r.lapsed = some p then s.replying p .lapsed []
       else s.replying p .notHolder [])

/-- RETURN: WAITERS comes before the state check; a READY reel reserves the slot that resolution gives and
becomes INBOUND with the next move order; with no slot the request is answered ZONE_FULL and the alert is all
that changes (R18, R29, R30, R31). Slot resolution: the home slot when it is AWAY for the reel or FREE, else a
FREE previous slot, else the lowest FREE slot of the reel's zone (R29). -/
def Obligations.ReturnAndResolution : Prop :=
  (∀ (s : State) (p : Port) (reel i k : Nat) (r : Reel), s.rdy p = true → p ≠ .p5 → s.names reel i r →
     r.renumbering = false → r.rack = some k →
     (r.waiters ≠ [] → exec (.returnReel p reel) s = .next (s.replying p .waiters [])) ∧
     (r.waiters = [] → r.custody ≠ .ready → exec (.returnReel p reel) s = .next (s.replying p .wrongState [])) ∧
     (r.waiters = [] → r.custody = .ready → resolveSlot r s = none →
       exec (.returnReel p reel) s = .next
         (let t := raiseAlert .zoneFull (some reel) (some (.port p)) { s with ports := s.taking p }
          { s with alerts := t.alerts, ports := withReply p .zoneFull [] t.alerts t.ports })) ∧
     (∀ n, r.waiters = [] → r.custody = .ready → resolveSlot r s = some n →
       exec (.returnReel p reel) s = .next
         (let number := if r.lastOrder < 255 then r.lastOrder + 1 else 1
          let wait := min 720 s.settings.firstWait
          let order : MoveOrder :=
            { reel := reel, number := number, dir := .inbound, source := k, dest := n, attempt := 1,
              state := .waiting wait }
          { s with
            slots := tablePut s.slots n (.reserved reel)
            orders := tablePut s.orders k order
            reels := tablePut s.reels i { r with custody := .inbound, current := some n, lastOrder := number }
            ports := withReply p .ok (u8 i ++ u8 6) s.alerts
              (addNotice .p5 (.moveOrder order wait) (s.taking p)) }))) ∧
  (∀ (s : State) (r : Reel), tableOrdered s.slots →
     (∀ n, r.home = some n → s.slotAt n = .away r.id ∨ s.slotAt n = .free → resolveSlot r s = some n) ∧
     ((∀ n, r.home = some n → s.slotAt n ≠ .away r.id ∧ s.slotAt n ≠ .free) →
       (∀ n, r.previous = some n → s.slotAt n = .free → resolveSlot r s = some n) ∧
       ((∀ n, r.previous = some n → s.slotAt n ≠ .free) →
         (∀ n, resolveSlot r s = some n ↔
           s.slotAt n = .free ∧ zoneOf s.settings n = some r.zone ∧
             ∀ m < n, ¬(s.slotAt m = .free ∧ zoneOf s.settings m = some r.zone)) ∧
         (resolveSlot r s = none ↔ ∀ n, ¬(s.slotAt n = .free ∧ zoneOf s.settings n = some r.zone)))))

/-- The expiry of a resting timer makes a RESTING reel READY, and of a threading timer ends a grant: the claims
of the former holder return to OPEN, it is the lapsed port and is told so, and the reel is READY; both grant the
head of the queue at once. An expiry meets no other state (R10, R12, R15). The exposure seconds of a reel
outside the store pass 59: they return to 0 and the accumulator advances, saturating; at or above a limit other
than 0 for the first time the reel becomes OVEREXPOSED, the alert is raised and its queue is dropped, each port
being told (R11, R19, R20). That an expiry or a minute acts whatever time is left (log 3), and the order of
alert and drops within the event (log 18), are the model's choices. -/
def Obligations.TimersExpire : Prop :=
  (∀ (s : State) (reel i : Nat) (r : Reel), s.phase = .running → s.names reel i r →
     (∀ w, r.custody = .resting w → exec (.restingTimerExpiry reel) s = .next (s.readied i r)) ∧
     ((∀ w, r.custody ≠ .resting w) → exec (.restingTimerExpiry reel) s = .next s) ∧
     (∀ p w, r.custody = .granted p w →
       exec (.threadingTimerExpiry reel) s = .next
         (({ s with ports := addNotice p (.lapsed reel) s.ports } : State).readied i
           { r with
             lapsed := some p
             defects := r.defects.map (fun d => if d.state = .claimed p then { d with state := .opened } else d) })) ∧
     ((∀ p w, r.custody ≠ .granted p w) → exec (.threadingTimerExpiry reel) s = .next s)) ∧
  (∀ (s : State) (reel i : Nat) (r : Reel), s.phase = .running → s.names reel i r →
     let minutes := min 65535 (r.exposure + 1)
     let limit := zoneLimit s.settings r.zone
     (r.custody = .shelved ∨ r.custody = .outbound ∨ r.custody = .moveFault .outbound →
       exec (.exposureMinute reel) s = .next s) ∧
     (¬(r.custody = .shelved ∨ r.custody = .outbound ∨ r.custody = .moveFault .outbound) →
       (r.overexposed = true ∨ limit = 0 ∨ minutes < limit →
         exec (.exposureMinute reel) s = .next
           { s with reels := tablePut s.reels i { r with exposureSeconds := 0, exposure := minutes } }) ∧
       (r.overexposed = false → limit ≠ 0 → limit ≤ minutes →
         exec (.exposureMinute reel) s = .next
           (let t := raiseAlert .exposureLimit (some reel) none s
            { s with
              alerts := t.alerts
              reels := tablePut s.reels i
                { r with exposureSeconds := 0, exposure := minutes, overexposed := true, waiters := [] }
              ports := r.waiters.foldl (fun ports p => addNotice p (.queueDropped reel .exposure) ports) t.ports }))))

/-! ### The shelf, the rack and the move orders (chapter 2) -/

/-- MOVE_DONE of an outbound move: the source slot is left (AWAY as the home slot, else FREE or BLOCKED), the
order is removed, and the reel is RESTING with the full preset of its zone, or READY with a preset of 0; out of
MOVE_FAULT the alert goes as well (R10, R27, R35, R38). The removal of MOVE_FAULT after the grant is the model's
choice (log 18). -/
def Obligations.OutboundMoveDone : Prop :=
  ∀ (s : State) (reel i k : Nat) (r : Reel) (o : MoveOrder), s.rdy .p5 = true → s.names reel i r →
    r.renumbering = false → r.rack = some k → tableGet s.orders k = some o → r.lastOrder ≠ 0 →
    r.custody = .outbound ∨ r.custody = .moveFault .outbound →
    exec (.moveDone .p5 reel r.lastOrder) s = .next
      (let t := ({ s.took .p5 with
          slots := tablePut s.slots o.source (r.slotLeft s.settings o.source)
          orders := tableErase s.orders k } : State).rested i (r.leaving o.source)
       let u := if r.custody = .outbound then t else removeAlert .moveFault (some reel) none t
       u.replied .p5 .ok (u8 i ++
         u8 (if zonePreset s.settings r.zone ≠ 0 then 2 else if r.waiters = [] then 3 else 4)))

/-- MOVE_DONE of an inbound move: the destination slot is OCCUPIED and the current slot of the reel, which is
SHELVED with its rack position, order, exposure and condition alerts gone; out of MOVE_FAULT the destination
must be FREE or AWAY for the reel, else IN_USE, and every other slot gives the reel up first (R8, R20, R27, R36,
R38). The order of the removals of one event, and of the slots given up, is the model's choice (logs 17 and 18).
-/
def Obligations.InboundMoveDone : Prop :=
  ∀ (s : State) (reel i k : Nat) (r : Reel) (o : MoveOrder), s.rdy .p5 = true → s.names reel i r →
    tableOrdered s.slots → r.renumbering = false → r.rack = some k → tableGet s.orders k = some o → r.lastOrder ≠ 0 →
    (r.custody = .inbound →
      exec (.moveDone .p5 reel r.lastOrder) s = .next
        (((s.took .p5).stored i o.dest r).replied .p5 .ok (u8 i ++ u8 0))) ∧
    (r.custody = .moveFault .inbound → s.slotAt o.dest ≠ .free → s.slotAt o.dest ≠ .away reel →
      exec (.moveDone .p5 reel r.lastOrder) s = .next (s.replying .p5 .inUse [])) ∧
    (r.custody = .moveFault .inbound → s.slotAt o.dest = .free ∨ s.slotAt o.dest = .away reel →
      exec (.moveDone .p5 reel r.lastOrder) s = .next
        ((({ s.took .p5 with
            slots := slotsGathered s.settings reel o.dest s.slots
            reels := tablePut s.reels i (r.gathered s o.dest) } : State).stored i o.dest
              (r.gathered s o.dest)).replied .p5 .ok (u8 i ++ u8 0)))

/-- MOVE_FAILED of a reel on its way makes its order FAULTED and the reel MOVE_FAULT, an inbound destination
giving up its reservation; one of a reel in MOVE_FAULT is answered WRONG_STATE; MOVE_DONE and MOVE_FAILED refuse
order number 0, then a number other than the last, then a reel with no order or in a custody state that has none
(R34, R37). The wait of attempt a is min(720, first wait × 2^(a − 1)) seconds: when it expires below the last
attempt the order is re-issued to P5 with the next attempt, at the last one it fails; a FAULTED order has no
wait (R33, R37). The empty body of MOVE_FAILED is the model's reading (log 9); that MOVE_WAIT_EXPIRY acts
whatever seconds are left is the model's choice (log 3). -/
def Obligations.MovesFail : Prop :=
  (∀ (s : State) (reel i : Nat) (r : Reel), s.rdy .p5 = true → s.names reel i r → r.renumbering = false →
     (∀ k o, r.rack = some k → tableGet s.orders k = some o → r.lastOrder ≠ 0 →
       (r.custody = .outbound ∨ r.custody = .inbound →
         exec (.moveFailed .p5 reel r.lastOrder) s = .next
           (((s.took .p5).faulted i k r o).replied .p5 .ok [])) ∧
       (r.custody ≠ .outbound → r.custody ≠ .inbound →
         exec (.moveFailed .p5 reel r.lastOrder) s = .next (s.replying .p5 .wrongState [])) ∧
       (r.custody ≠ .outbound → r.custody ≠ .inbound → r.inFault = false →
         exec (.moveDone .p5 reel r.lastOrder) s = .next (s.replying .p5 .wrongState []))) ∧
     (∀ order c, c = .moveDone .p5 reel order ∨ c = .moveFailed .p5 reel order →
       (order = 0 → exec c s = .next (s.replying .p5 .outOfRange [])) ∧
       (order ≠ 0 → order ≠ r.lastOrder → exec c s = .next (s.replying .p5 .staleOrder [])) ∧
       (order ≠ 0 → order = r.lastOrder → (∀ k, r.rack = some k → tableGet s.orders k = none) →
         exec c s = .next (s.replying .p5 .wrongState [])))) ∧
  (∀ (s : State) (reel i k : Nat) (r : Reel) (o : MoveOrder), s.phase = .running → s.names reel i r →
     r.rack = some k → tableGet s.orders k = some o →
     (o.state = .faulted → exec (.moveWaitExpiry reel) s = .next s) ∧
     (∀ w, o.state = .waiting w → o.attempt < s.settings.reissue + 1 →
       exec (.moveWaitExpiry reel) s = .next
         (let wait := min 720 (s.settings.firstWait * 2 ^ o.attempt)
          let order : MoveOrder := { o with attempt := o.attempt + 1, state := .waiting wait }
          { s with
            orders := tablePut s.orders k order
            ports := addNotice .p5 (.moveOrder order wait) s.ports })) ∧
     (∀ w, o.state = .waiting w → s.settings.reissue + 1 ≤ o.attempt →
       exec (.moveWaitExpiry reel) s = .next (s.faulted i k r o)))

/-- LOCATE after its reel checks: a place kind that names nothing is BAD_REQUEST, and a reel that is not in
MOVE_FAULT is WRONG_STATE, whatever the place (R4, R39). LOCATE places a reel in MOVE_FAULT: in a slot that is
FREE, or AWAY or OCCUPIED for it, it is SHELVED and every other slot gives it up; on a rack position that is
free or its own it is READY after an inbound fault, and RESTING with its source slot left after an outbound one;
the order and the alert go (R9, R39, R40). The empty body, the place of the kind check, the previous slot after
LOCATE, and the place of the MOVE_FAULT removal (after the grant on the rack; among the removals on storing) are
the model's readings and choices (logs 9, 13, 17 and 18). -/
def Obligations.LocateEndsFault : Prop :=
  (∀ (s : State) (reel i kind place : Nat) (r : Reel), s.rdy .p5 = true → s.names reel i r → r.renumbering = false →
     (1 < kind → exec (.locate .p5 reel kind place) s = .next (s.replying .p5 .badRequest [])) ∧
     (kind ≤ 1 → r.inFault = false → exec (.locate .p5 reel kind place) s = .next (s.replying .p5 .wrongState []))) ∧
  (∀ (s : State) (reel i k place : Nat) (dir : Direction) (r : Reel) (o : MoveOrder), s.rdy .p5 = true →
     s.names reel i r → tableOrdered s.slots → r.renumbering = false → r.rack = some k →
     tableGet s.orders k = some o → r.custody = .moveFault dir →
     exec (.locate .p5 reel 0 place) s = .next
       (if 1023 < place then s.replying .p5 .outOfRange []
        else if s.slotAt place = .free ∨ s.slotAt place = .away reel ∨ s.slotAt place = .occupied reel then
          ({ s.took .p5 with
            slots := slotsGathered s.settings reel place s.slots
            reels := tablePut s.reels i (r.gathered s place) } : State).stored i place (r.gathered s place)
            |>.replied .p5 .ok []
        else if ∃ id, (s.slotAt place).occupant = some id ∧ id ≠ reel then s.replying .p5 .inUse []
        else s.replying .p5 .wrongState []) ∧
     exec (.locate .p5 reel 1 place) s = .next
       (if 15 < place then s.replying .p5 .outOfRange []
        else if place ≠ k ∧ (tableGet s.rack place).isSome then s.replying .p5 .inUse []
        else
          let base : State :=
            { s.took .p5 with
              orders := tableErase s.orders k
              rack := if place = k then s.rack else tablePut (tableErase s.rack k) place reel }
          let t := match dir with
            | .outbound =>
              ({ base with slots := tablePut s.slots o.source (r.slotLeft s.settings o.source) } : State).rested i
                { r.leaving o.source with rack := some place }
            | .inbound => base.readied i { r with rack := some place }
          (removeAlert .moveFault (some reel) none t).replied .p5 .ok []))

/-- SLOT_REPORT, its checks in order: it makes an UNKNOWN, FREE or OCCUPIED slot OCCUPIED with the reported
reel, or FREE (BLOCKED in no zone), unless the part believes in the reel that the slot names, or knows the
reported reel in another slot (R41). BLOCK_SLOT makes a FREE or UNKNOWN slot BLOCKED and leaves a BLOCKED one as
it is; UNBLOCK_SLOT makes a BLOCKED slot that lies in a zone UNKNOWN; any other slot is answered WRONG_STATE
(R42). The check of the content byte stands first and the bodies are empty by the model's reading (logs 9 and
13). -/
def Obligations.SlotRecords : Prop :=
  (∀ (s : State) (slot content reel : Nat), s.rdy .p5 = true →
     exec (.slotReport .p5 slot content reel) s = .next
       (let reported : Option Nat := if content = 1 then some reel else none
        let believedIn : Bool := match s.slotAt slot with
          | .occupied id =>
            match s.findReel id with
            | some (_, r) =>
              reported ≠ some id &&
                (r.custody = .shelved || ((r.custody = .outbound || r.inFault) && r.current = some slot))
            | none => false
          | _ => false
        let knownElsewhere : Bool :=
          s.slots.any (fun e => e.1 ≠ slot && e.2.occupant = some reel) ||
            (match s.findReel reel with
              | some (_, r) => r.current ≠ some slot
              | none => false)
        if 1 < content then s.replying .p5 .badRequest []
        else if 1023 < slot ∨ reported = some 0 then s.replying .p5 .outOfRange []
        else if (s.slotAt slot).code ∈ [2, 3, 4] then s.replying .p5 .wrongState []
        else if believedIn then s.replying .p5 .inUse []
        else if content = 1 ∧ knownElsewhere then s.replying .p5 .duplicate []
        else
          { s with
            slots := tablePut s.slots slot (if content = 1 then .occupied reel else emptiedSlot s.settings slot)
            ports := s.answered .p5 .ok [] })) ∧
  (∀ (s : State) (slot : Nat), s.rdy .p5 = true →
     exec (.blockSlot .p5 slot) s = .next
       (if 1023 < slot then s.replying .p5 .outOfRange []
        else if s.slotAt slot = .free ∨ s.slotAt slot = .unknown then
          { s with slots := tablePut s.slots slot .blocked, ports := s.answered .p5 .ok [] }
        else if s.slotAt slot = .blocked then s.replying .p5 .ok []
        else s.replying .p5 .wrongState []) ∧
     exec (.unblockSlot .p5 slot) s = .next
       (if 1023 < slot then s.replying .p5 .outOfRange []
        else if s.slotAt slot = .blocked ∧ ∃ e ∈ s.settings.zones, e.2.first ≤ slot ∧ slot ≤ e.2.last then
          { s with slots := tableErase s.slots slot, ports := s.answered .p5 .ok [] }
        else s.replying .p5 .wrongState []))

/-! ### Registration, speed and breaks (chapter 3) -/

/-- An edge under reverse, an edge at a unit in IDLE, an edge once numbering is exhausted and an edge at a
stopped part change nothing but the levels read with them; an encoder step moves the position by 1 modulo 2^32
(R45, R60). That a stopped part still records the levels read is the model's choice (logs 5 and 19). -/
def Obligations.IgnoredEdgesAndSteps : Prop :=
  ∀ (s : State) (t : Transport),
    (∀ time dir, s.phase ≠ .running ∨ dir = .reverse ∨ (s.unit t).state = .idle ∨
        ((s.unit t).state ≠ .armed ∧ ∃ run ∈ (s.unit t).run, run.exhausted = true) →
      exec (.perfEdge t time dir) s = .next
        { s with timestamp := time, lines := s.lines.set t { s.line t with dirLine := dir } }) ∧
    (∀ sense, s.phase = .running →
      exec (.encoderStep t sense) s = .next
        { s with
          units := s.units.set t
            { s.unit t with
              encoder := if sense = .forward then (s.unit t).encoder + 1 else (s.unit t).encoder - 1 } })

/-- The first forward edge in ARMED is count 0: the unit is LOCKED, the pass RUNNING, and frame F0 is captured
with no cycle-time test, its tag following the tags before it (R51, R59, R75, R76, R80, R82). What the tag of
frame f holds: the transport, reel, pass number and frame; neutral lights, unity gains and no scene flag for an
INSPECT pass; for a GRADED pass the effective lights of f from the committed list and the frozen trim, their
gains, and the two scene flags; the entry that covers f, the mark, and the shrinkage of the estimate. It leaves
on TAG as 21 bytes in the order of its fields (R80, R81, R113, R145, R146, R182). The kept mark of a skipped
boundary is the model's reading (log 14). -/
def Obligations.FirstEdgeLocks : Prop :=
  (∀ (s : State) (t : Transport) (time : Word32) (run : UnitRun) (p : Pass), s.phase = .running →
     (s.unit t).state = .armed → (s.unit t).run = some run → s.pass t = some p → p.endFrame ≠ some run.f0 →
     exec (.perfEdge t time .forward) s = .next
       { s with
         timestamp := time
         units := s.units.set t
           { s.unit t with
             state := .locked
             run := some { run with
               track := some ⟨0, (s.unit t).encoder, time⟩, accepted := 1, reacquired := false } }
         passes := s.passes.set t
           (some { p with
             state := .running, highest := some run.f0, lastCaptured := some run.f0
             captured := min 65535 (p.captured + 1), misses := 0, carriedMark := false })
         lines := s.lines.set t
           { s.line t with
             dirLine := .forward
             capturePulses := (s.line t).capturePulses + 1
             tags := (s.line t).tags ++ [frameTag t p run.f0 (run.reacquired || p.carriedMark) s] } }) ∧
  (∀ (s : State) (t : Transport) (p : Pass) (f : Nat) (mark : Bool),
     let tag := frameTag t p f mark s
     tag.transport = t ∧ tag.reel = p.reel ∧ tag.pass = p.number ∧ tag.frame = f ∧ tag.reacquired = mark ∧
     (tag.defectHere = true ↔
       ∃ d ∈ s.defectsOf p.reel, (d.state = .opened ∨ (∃ q, d.state = .claimed q) ∨ d.state = .repaired) ∧
         d.first ≤ f ∧ f < d.first + d.span) ∧
     (∀ run, (s.unit t).run = some run → tag.shrinkage = shrinkageOf run.gauge run.pitch) ∧
     (p.kind = .inspect →
       tag.lights = ⟨25, 25, 25⟩ ∧ tag.gains = ⟨4096, 4096, 4096⟩ ∧ tag.sceneStart = false ∧ tag.inFade = false) ∧
     (∀ i r trim, p.kind = .graded → s.names p.reel i r → p.frozenTrim = some trim → scenesRise r.scenes →
       tag.lights = lightsAt f r.scenes trim ∧
       tag.gains = ⟨gainOf tag.lights.r, gainOf tag.lights.g, gainOf tag.lights.b⟩ ∧
       (tag.sceneStart = true ↔ ∃ c ∈ r.scenes, c.start = f) ∧
       (tag.inFade = true ↔
         ∃ below c after, r.scenes = below ++ c :: after ∧ c.start ≤ f ∧ (∀ d ∈ after, f < d.start) ∧
           f < c.start + (match after.head? with
             | some d => min c.fade (d.start - c.start)
             | none => c.fade))) ∧
     tag.bytes =
       u8 (if t = .t0 then 0 else 1) ++ u32 p.reel ++ u16 p.number ++ u16 f ++
         u8 tag.lights.r ++ u8 tag.lights.g ++ u8 tag.lights.b ++
         u16 tag.gains.r ++ u16 tag.gains.g ++ u16 tag.gains.b ++
         u8 (tag.sceneStart.toNat + 2 * tag.inFade.toNat + 4 * tag.defectHere.toNat + 8 * mark.toNat) ++
         leInt 2 tag.shrinkage ∧
     tag.bytes.length = 21)

/-- An edge in LOCKED or REACQUIRE whose interval lies below P − floor(P/8) is spurious: only the two spurious
counters move, and the third of an interval raises EDGE_DAMAGE once a frame; one in LOCKED in the window of one
pitch filters the estimate by one eighth, truncated, within the limits of its gauge, and tests the shrinkage
when the estimate changes (R47, R53, R54, R57, R62). -/
def Obligations.EdgesInsideAFrame : Prop :=
  ∀ (s : State) (t : Transport) (time : Word32) (run : UnitRun) (k : Track) (p : Pass), s.phase = .running →
    (s.unit t).state = .locked ∨ (s.unit t).state = .reacquire → (s.unit t).run = some run → run.track = some k →
    run.exhausted = false → s.pass t = some p →
    let m16 : Nat := 16 * ((s.unit t).encoder - k.position).toNat
    let seen : State := { s with timestamp := time, lines := s.lines.set t { s.line t with dirLine := .forward } }
    let withRun (r : UnitRun) : State := { seen with units := s.units.set t { s.unit t with run := some r } }
    (m16 < run.pitch - run.pitch / 8 →
      let n := min 255 (run.spurious + 1)
      let frame := run.f0 + k.count / run.gauge.perFrame
      let passes := s.passes.set t (some { p with spurious := min 65535 (p.spurious + 1) })
      exec (.perfEdge t time .forward) s = .next
        (if n = 3 ∧ run.lastEdgeDamage ≠ some frame then
          raiseForPass t run.reel frame .edgeDamage
            { withRun { run with spurious := n, lastEdgeDamage := some frame } with passes := passes }
        else { withRun { run with spurious := n } with passes := passes })) ∧
    (∀ i r, (s.unit t).state = .locked → s.names run.reel i r → run.pitch - run.pitch / 8 ≤ m16 →
      m16 ≤ run.pitch + run.pitch / 8 → (k.count + 1) % run.gauge.perFrame ≠ 0 → k.count + 1 ≤ run.countLimit →
      let n : Int := run.gauge.nominal
      let p' : Nat :=
        (max (16 * n - 16 * n / 10) (min (16 * n + 16 * n / 50)
          ((run.pitch : Int) + ((m16 : Int) - (run.pitch : Int)).tdiv 8))).toNat
      let base := withRun
        { run with
          track := some ⟨k.count + 1, (s.unit t).encoder, time⟩
          accepted := run.accepted + 1, spurious := 0, pitch := p' }
      exec (.perfEdge t time .forward) s = .next
        (if p' ≠ run.pitch ∧ r.shrunk = false ∧ (s.settings.shrinkLimit : Int) ≤ shrinkageOf run.gauge p' then
          raiseAlert .shrinkage (some run.reel) (some (.transport t))
            { base with reels := tablePut s.reels i { r with shrunk := true } }
        else base))

/-- An edge outside both windows puts the unit in REACQUIRE with the count advanced by the pitches in the
interval, rounded to nearest and at least 1, and raises PITCH_BREAK at the frame of the new count unless a
splice is known within one frame; in REACQUIRE the estimate is frozen, and the third interval in a run within
the window locks the unit again. The frame boundaries that such an edge passes are missed, and that of the end
frame ends the pass (R52, R56, R57, R59, R75, R77). When the reacquired mark is set and taken follows R57, R59
and R80 as log 14 reads them. -/
def Obligations.BreakAndReacquire : Prop :=
  ∀ (s : State) (t : Transport) (time : Word32) (run : UnitRun) (k : Track), s.phase = .running →
    (s.unit t).run = some run → run.track = some k → run.exhausted = false →
    let m16 : Nat := 16 * ((s.unit t).encoder - k.position).toNat
    let near : Prop := run.pitch - run.pitch / 8 ≤ m16 ∧ m16 ≤ run.pitch + run.pitch / 8
    let advance := max 1 ((m16 + run.pitch / 2) / run.pitch)
    let old := run.f0 + k.count / run.gauge.perFrame
    let new := run.f0 + (k.count + advance) / run.gauge.perFrame
    let seen : State := { s with timestamp := time, lines := s.lines.set t { s.line t with dirLine := .forward } }
    let counted : UnitRun :=
      { run with
        track := some ⟨k.count + advance, (s.unit t).encoder, time⟩, accepted := run.accepted + 1, spurious := 0 }
    run.pitch - run.pitch / 8 ≤ m16 → k.count + advance ≤ run.countLimit →
    ((s.unit t).state = .locked → ¬near →
      ¬(2 * run.pitch - run.pitch / 8 ≤ m16 ∧ m16 ≤ 2 * run.pitch + run.pitch / 8) →
      let u : State :=
        { seen with
          units := s.units.set t
            { s.unit t with state := .reacquire, run := some { counted with lockRun := 0, intervals := 0 } } }
      exec (.perfEdge t time .forward) s = .next
        ((if spliceNear (s.defectsOf run.reel) new then u
          else raiseForPass t run.reel new .pitchBreak u).missedBetween t old new)) ∧
    ((s.unit t).state = .reacquire → near → 2 ≤ run.lockRun →
      exec (.perfEdge t time .forward) s = .next
        (({ seen with
          units := s.units.set t
            { s.unit t with
              state := .locked, run := some { counted with lockRun := 0, intervals := 0, reacquired := true } } } :
                State).missedBetween t old new)) ∧
    ((s.unit t).state = .reacquire → ¬(near ∧ 2 ≤ run.lockRun) → run.intervals + 1 < 64 →
      exec (.perfEdge t time .forward) s = .next
        (({ seen with
          units := s.units.set t
            { s.unit t with
              run := some
                { counted with
                  lockRun := if run.pitch - run.pitch / 8 ≤ m16 ∧ m16 ≤ run.pitch + run.pitch / 8 then
                    run.lockRun + 1 else 0
                  intervals := run.intervals + 1 } } } : State).missedBetween t old new))

/-- BREAK asserted sets the break latch in every state and raises FILM_BREAK; a pass being registered is aborted
with STOP held. DIR going to reverse aborts such a pass and has no other effect (R50, R65, R66, R68, R84). -/
def Obligations.BreakAndReverse : Prop :=
  ∀ (s : State) (t : Transport), s.phase = .running →
    ((s.unit t).state = .idle →
      exec (.breakAsserted t) s = .next
        (raiseAlert .filmBreak ((s.pass t).map (·.reel)) (some (.transport t))
          { s with
            lines := s.lines.set t { s.line t with breakLine := true }
            units := s.units.set t { s.unit t with breakLatch := true } }) ∧
      exec (.reverseEdge t) s = .next { s with lines := s.lines.set t { s.line t with dirLine := .reverse } }) ∧
    (∀ run p, (s.unit t).state ≠ .idle → (s.unit t).run = some run → s.pass t = some p →
      exec (.breakAsserted t) s = .next
        (let frame := run.f0 + (run.track.map (·.count)).getD 0 / run.gauge.perFrame
         let torn := raiseForPass t run.reel frame .tear
           { s with
             lines := s.lines.set t { s.line t with breakLine := true }
             units := s.units.set t { s.unit t with breakLatch := true } }
         let q : Pass :=
           { (torn.pass t).getD p with state := .ended, reason := some (.aborted .filmBreak), tail := some false }
         raiseAlert .filmBreak (some p.reel) (some (.transport t))
           { torn with
             units := s.units.set t { s.unit t with state := .idle, breakLatch := true, abortHold := true }
             passes := torn.passes.set t (some q)
             ports := addNotice (pairedPort t) (.passEnded t q) torn.ports }) ∧
      exec (.reverseEdge t) s = .next
        (let q : Pass := { p with state := .ended, reason := some (.aborted .reversed), tail := some false }
         { s with
           lines := s.lines.set t { s.line t with dirLine := .reverse }
           units := s.units.set t { s.unit t with state := .idle, abortHold := true }
           passes := s.passes.set t (some q)
           ports := addNotice (pairedPort t) (.passEnded t q) s.ports }))

/-- SET_SPEED sets the code of the paired transport, clamped to 7; the code driven is the lower of it and the
cap, the gentle code while the reel held by the port is SHRUNK and 7 otherwise. CLEAR_BREAK clears the break
latch unless BREAK is still asserted, and leaves the abort hold (R63, R64, R65, R67). That a refused CLEAR_BREAK
records the level it read (log 5), and that a flag byte is 1 when set and 0 when clear (log 33), are the model's
choices. -/
def Obligations.SpeedAndLatch : Prop :=
  ∀ (s : State) (p : Port) (t : Transport), s.rdy p = true → pairedTransport p = some t →
    let cap := match s.heldBy p with
      | some (_, r) => if r.shrunk then s.settings.gentle else 7
      | none => 7
    s.speedCode t = min (s.unit t).setCode cap ∧
    (∀ code,
      exec (.setSpeed p code) s = .next
        (({ s.took p with units := s.units.set t { s.unit t with setCode := min 7 code } } : State).replied p
          (if code ≤ 7 then .ok else .clamped) (u8 (min 7 code) ++ u8 cap ++ u8 (min (min 7 code) cap)))) ∧
    exec (.clearBreak p true) s = .next
      (({ s.took p with lines := s.lines.set t { s.line t with breakLine := true } } : State).replied p
        .breakActive []) ∧
    exec (.clearBreak p false) s = .next
      (({ s.took p with
          lines := s.lines.set t { s.line t with breakLine := false }
          units := s.units.set t { s.unit t with breakLatch := false } } : State).replied p .ok
        (u8 0 ++ u8 (s.unit t).abortHold.toNat ++ u8 (s.unit t).abortHold.toNat))

/-! ### Passes (chapter 4) -/

/-- START_PASS: its checks in order, each answered with its number, and then the pass: the reel's pass number
advances, the record is made ARMED with the trim frozen for a graded pass, and the unit is ARMED with the stored
estimate or the nominal one, clamped to the limits of its gauge (R47, R48, R49, R62, R72, R73). -/
def Obligations.StartPassArms : Prop :=
  ∀ (s : State) (p : Port) (t : Transport) (kind f0 e : Nat), s.rdy p = true → pairedTransport p = some t →
    s.reelTableOk →
    exec (.startPass p kind f0 e) s = .next
      (if 1 < kind then s.replying p .badRequest []
       else match s.heldBy p with
         | none => s.replying p .notHolder (u8 1)
         | some (i, r) =>
           if r.custody ≠ .held p then s.replying p .wrongState (u8 2)
           else if s.pass t ≠ none then s.replying p .passActive (u8 3)
           else if (s.unit t).breakLatch then s.replying p .breakActive (u8 4)
           else if (if t = .t0 then s.settings.cycle0 else s.settings.cycle1) = 0 then s.replying p .wrongState (u8 5)
           else if 65534 < f0 ∨ r.frameCount = none ∧ f0 ≠ 0 ∨ r.frameCount.any (· ≤ f0) then
             s.replying p .outOfRange (u8 6)
           else if e ≠ 65535 ∧ (65534 < e ∨ e ≤ f0) then s.replying p .outOfRange (u8 7)
           else if kind = 1 ∧ r.renumbering then s.replying p .renumbering (u8 8)
           else if kind = 1 ∧ r.gradeLocked = false then s.replying p .wrongState (u8 9)
           else if kind = 1 ∧ r.countConfirmed = false then s.replying p .countUnconfirmed (u8 10)
           else if kind = 1 ∧ r.blockingCount ≠ 0 then s.replying p .blockingDefects (u8 11)
           else
             let number := min 65535 (r.passNumber + 1)
             let n : Int := r.gauge.nominal
             let loaded : Int := match r.pitch with
               | some g => g.estimate
               | none => 16 * n
             let estimate : Nat := (max (16 * n - 16 * n / 10) (min (16 * n + 16 * n / 50) loaded)).toNat
             let shrinks : Bool := !r.shrunk && s.settings.shrinkLimit ≤ shrinkageOf r.gauge estimate
             let made : State :=
               { s.took p with
                 passes := s.passes.set t
                   (some
                     { kind := if kind = 1 then .graded else .inspect, reel := r.id, number := number, f0 := f0,
                       endFrame := if e = 65535 then none else some e, state := .armed, reason := none,
                       tail := none, highest := none, lastCaptured := none, captured := 0, missed := 0,
                       spurious := 0, defectsRaised := 0, misses := 0, exhausted := false, carriedMark := false, walked := 0,
                       verified := 0,
                       frozenTrim := if kind = 1 then some r.trim else none })
                 units := s.units.set t
                   { s.unit t with
                     state := .armed
                     run := some
                       { reel := r.id, gauge := r.gauge, f0 := f0, pitch := estimate, track := none,
                         accepted := 0, spurious := 0, lastEdgeDamage := none, lockRun := 0, intervals := 0,
                         reacquired := false, exhausted := false } }
                 reels := tablePut s.reels i { r with passNumber := number, shrunk := r.shrunk || shrinks } }
             let tested :=
               if shrinks then raiseAlert .shrinkage (some r.id) (some (.transport t)) made else made
             tested.replied p .ok
               (u16 number ++ u16 f0 ++ u32 estimate ++ leInt 2 (shrinkageOf r.gauge estimate) ++
                 u8 (tested.speedCode t)))

/-- END_PASS ends an ARMED or RUNNING pass, COMPLETE with the tail and STOPPED without it, tells the paired port
and answers with the counters; the unit goes to IDLE and keeps its figures (R50, R83). CLOSE_PASS of an ENDED
pass that is not a COMPLETE INSPECT pass: the pitch figures are written when 64 edges were accepted, a COMPLETE
GRADED pass sets graded-done, the abort hold is cleared and the place is free at once; no other state of a pass
is closed (R87, R89). CLOSE_PASS of a COMPLETE INSPECT pass: the pitch figures are written when 64 edges were
accepted; the inspect count advances, and with F0 of 0, the tail seen and a highest boundary the frame count
becomes highest + 1, confirmed when every scene starts below it, with FRAME_COUNT_CHANGED, naming the transport,
for a count that changes. It is ACCEPTED: with entries to verify the pass is CLOSING; with an empty range or an
empty list the close completes at once, with its CLOSED notice before the reply (R87, R88, R89, R109, R152). The
order of the counters in the body, the empty bodies, and the CLOSED notice before the reply of a close that
completes at once, are the model's readings (logs 9 and 15). -/
def Obligations.ClosePass : Prop :=
  (∀ (s : State) (p : Port) (t : Transport) (tail : Nat), s.rdy p = true → pairedTransport p = some t →
     exec (.endPass p tail) s = .next
       (if 1 < tail then s.replying p .badRequest []
        else match s.pass t with
          | none => s.replying p .wrongState []
          | some q =>
            if q.state = .armed ∨ q.state = .running then
              let ended : Pass :=
                { q with
                  state := .ended, reason := some (if tail = 1 then .complete else .stopped)
                  tail := some (tail = 1) }
              ({ s.took p with
                units := s.units.set t { s.unit t with state := .idle }
                passes := s.passes.set t (some ended)
                ports := addNotice p (.passEnded t ended) (s.taking p) } : State).replied p .ok
                  (u16 q.captured ++ u16 q.missed ++ u16 q.spurious ++ u16 q.defectsRaised)
            else s.replying p .wrongState [])) ∧
  (∀ (s : State) (p : Port) (t : Transport), s.rdy p = true → pairedTransport p = some t →
     (∀ q, s.pass t = some q → q.state = .closing → exec (.closePass p) s = .next (s.replying p .passActive [])) ∧
     ((∀ q, s.pass t = some q → q.state = .armed ∨ q.state = .running) →
       exec (.closePass p) s = .next (s.replying p .wrongState [])) ∧
     (∀ q run i r, s.pass t = some q → q.state = .ended → ¬(q.kind = .inspect ∧ q.reason = some .complete) →
       (s.unit t).run = some run → run.reel = q.reel → s.names q.reel i r →
       exec (.closePass p) s = .next
         (({ s.took p with
             reels := tablePut s.reels i
               { r with
                 pitch := if 64 ≤ run.accepted then some ⟨run.pitch, shrinkageOf run.gauge run.pitch⟩ else r.pitch
                 shrunk := if 64 ≤ run.accepted then
                     s.settings.shrinkLimit ≤ shrinkageOf run.gauge run.pitch
                   else r.shrunk
                 gradedDone := r.gradedDone || (q.kind = .graded && q.reason = some .complete) }
             units := s.units.set t { s.unit t with abortHold := false }
             passes := s.passes.set t none } : State).replied p .ok []))) ∧
  (∀ (s : State) (p : Port) (t : Transport) (q : Pass) (run : UnitRun) (i : Nat) (r : Reel), s.rdy p = true →
     pairedTransport p = some t → s.pass t = some q → q.state = .ended → q.kind = .inspect →
     q.reason = some .complete → (s.unit t).run = some run → (64 ≤ run.accepted → run.reel = q.reel) →
     s.names q.reel i r →
     let figure := shrinkageOf run.gauge run.pitch
     let measured : Option Nat := if q.f0 = 0 ∧ q.tail = some true then q.highest.map (· + 1) else none
     let r' : Reel :=
       { r with
         pitch := if 64 ≤ run.accepted then some ⟨run.pitch, figure⟩ else r.pitch
         shrunk := if 64 ≤ run.accepted then (s.settings.shrinkLimit : Int) ≤ figure else r.shrunk
         inspectCount := min 255 (r.inspectCount + 1)
         frameCount := if measured = none then r.frameCount else measured
         countConfirmed := match measured with
           | some n => r.scenes.all (fun c => c.start < n)
           | none => r.countConfirmed }
     let raised : State :=
       if measured ≠ none ∧ r.frameCount ≠ none ∧ r.frameCount ≠ measured then
         raiseAlert .frameCountChanged (some q.reel) (some (.transport t)) (s.took p)
       else s.took p
     let closing : Pass := { q with state := .closing, walked := 0, verified := 0 }
     (q.highest ≠ none → r.defects ≠ [] →
       exec (.closePass p) s = .next
         (({ raised with
             reels := tablePut s.reels i r'
             passes := s.passes.set t (some closing) } : State).replied p .accepted [])) ∧
     (q.highest = none ∨ r.defects = [] →
       exec (.closePass p) s = .next
         (({ raised with
             reels := tablePut s.reels i
               { r' with openCount := countOpen r.defects, blockingCount := countBlocking r.defects }
             units := s.units.set t { s.unit t with abortHold := false }
             passes := s.passes.set t none
             ports := addNotice p (.passClosed t closing 0 r'.frameCount r'.countConfirmed) raised.ports } :
               State).replied p .accepted [])))

/-- A stretch of the verification walk of a CLOSING pass goes on from the entry at which the walk stands, past
the next n entries of the reel's list or to its tail: each REPAIRED entry among them that lies whole in the
covered range, from F0 to the highest boundary, becomes VERIFIED and the reel is counted again. When the last
entry is passed the paired port is told how many were verified and the place is freed; until then the pass stays
CLOSING and the walk stands behind the entries that it has passed. RESET asserted there stops it, and so does a
loss of power that the store comes through: the records stand as the walk left them and the pass is gone. With
no pass in CLOSING there is no walk (R89, R91, R102, R109, R110). -/
def Obligations.VerificationWalks : Prop :=
  ∀ (s : State) (t : Transport) (n : Option Nat), s.phase = .running →
    ((∀ q, s.pass t = some q → q.state ≠ .closing) → exec (.verificationWalk ⟨t, n⟩) s = .next s) ∧
    (∀ q h i r, s.pass t = some q → q.state = .closing → q.kind = .inspect → q.highest = some h →
      s.names q.reel i r →
      let reached (j : Nat) : Bool := q.walked ≤ j && (match n with
        | none => true
        | some k => j < q.walked + k)
      let verified (x : Defect × Nat) : Bool :=
        reached x.2 && x.1.state = .repaired && q.f0 ≤ x.1.first && x.1.first + x.1.span - 1 ≤ h
      let ds := r.defects.zipIdx.map (fun x => if verified x then { x.1 with state := .verified } else x.1)
      let count := q.verified + (r.defects.zipIdx.filter verified).length
      let left : State :=
        { s with
          reels := tablePut s.reels i
            { r with defects := ds, openCount := countOpen ds, blockingCount := countBlocking ds } }
      ((∀ k, n = some k → r.defects.length ≤ q.walked + k) →
        exec (.verificationWalk ⟨t, n⟩) s = .next
          { left with
            units := s.units.set t { s.unit t with abortHold := false }
            passes := s.passes.set t none
            ports := addNotice (pairedPort t)
              (.passClosed t { q with walked := 0, verified := 0 } count r.frameCount r.countConfirmed) s.ports }) ∧
      (∀ k, n = some k → q.walked + k < r.defects.length →
        let between : State :=
          { left with passes := s.passes.set t (some { q with walked := q.walked + k, verified := count }) }
        exec (.verificationWalk ⟨t, n⟩) s = .next between ∧
        (∀ c, c = .resetAsserted ∨ c = .powerLoss .kept →
          ∃ u, exec c between = .next u ∧ u.reels = left.reels ∧ u.pass t = none)))

/-- The capture decision at the boundary of frame f that a normal edge, or an edge with one missing perforation,
ends on: with a predicted period of at least the cycle time CAPTURE is pulsed once and the tag of f follows on
TAG; otherwise the frame is missed and MISSED_CAPTURE raised, and the third miss in a run lowers the set speed
by one and raises OVERSPEED. A normal edge filters the estimate and tests the shrinkage before it; an edge with
a missing perforation leaves the estimate, raises MISSING_PERF at the frame between and misses the extra
boundary it passes (R52, R54, R55, R59, R62, R75, R76, R77, R78, R80, R82). That the mark leaves the unit at the
boundary and waits in the pass after a skip follows R57, R59 and R80 as log 14 reads them. -/
def Obligations.CaptureDecides : Prop :=
  ∀ (s : State) (t : Transport) (time : Word32) (run : UnitRun) (k : Track) (p : Pass) (i : Nat) (r : Reel)
      (advance : Nat),
    s.phase = .running → (s.unit t).state = .locked → (s.unit t).run = some run → run.track = some k →
    run.exhausted = false → s.pass t = some p → p.state = .running → s.names run.reel i r →
    let m16 : Nat := 16 * ((s.unit t).encoder - k.position).toNat
    let near : Prop := run.pitch - run.pitch / 8 ≤ m16 ∧ m16 ≤ run.pitch + run.pitch / 8
    let double : Prop := 2 * run.pitch - run.pitch / 8 ≤ m16 ∧ m16 ≤ 2 * run.pitch + run.pitch / 8
    let old := run.f0 + k.count / run.gauge.perFrame
    let f := run.f0 + (k.count + advance) / run.gauge.perFrame
    let period := run.gauge.perFrame * ((time - k.time).toNat / advance)
    let cycle := if t = .t0 then s.settings.cycle0 else s.settings.cycle1
    (advance = 1 ∧ near) ∨ (advance = 2 ∧ ¬near ∧ double) → (k.count + advance) % run.gauge.perFrame = 0 →
    k.count + advance ≤ run.countLimit → (∀ e, p.endFrame = some e → ¬(old < e ∧ e ≤ f)) →
    let p' := if advance = 1 then filteredPitch run.gauge run.pitch m16 else run.pitch
    let base : State :=
      { s with
        timestamp := time
        lines := s.lines.set t { s.line t with dirLine := .forward }
        units := s.units.set t
          { s.unit t with
            run := some
              { run with
                track := some ⟨k.count + advance, (s.unit t).encoder, time⟩
                accepted := run.accepted + 1, spurious := 0, pitch := p', reacquired := false } } }
    let seen : State :=
      if advance = 1 then
        if p' ≠ run.pitch ∧ r.shrunk = false ∧ (s.settings.shrinkLimit : Int) ≤ shrinkageOf run.gauge p' then
          raiseAlert .shrinkage (some run.reel) (some (.transport t))
            { base with reels := tablePut s.reels i { r with shrunk := true } }
        else base
      else
        (raiseForPass t run.reel (run.f0 + (k.count + 1) / run.gauge.perFrame) .missingPerf base).missedFrom t
          (old + 1) (f - old - 1)
    (cycle ≤ period → exec (.perfEdge t time .forward) s = .next (seen.capturedAt t f run.reacquired)) ∧
    (period < cycle → exec (.perfEdge t time .forward) s = .next (seen.skippedAt t f run.reacquired))

/-- The other ends of an edge: a single missing perforation advances the count by 2, raises MISSING_PERF at the
frame between and misses the boundary that it passes over; an edge past the count limit is not accepted and
exhausts the numbering; the 64th interval of a reacquisition misses its boundaries and aborts the pass with
REGISTRATION_FAILED, unless the end frame is among them; and a pass that takes its end frame, at a capture or at
an extra boundary, ends COMPLETE in that same edge, all else being as for a pass with no end frame (R55, R57,
R58, R59, R60, R75, R77, R83). Which boundaries take the reacquired mark is the model's reading (log 14). -/
def Obligations.EdgesThatEnd : Prop :=
  ∀ (s : State) (t : Transport) (time : Word32) (run : UnitRun) (k : Track) (p : Pass), s.phase = .running →
    (s.unit t).run = some run → run.track = some k → run.exhausted = false → s.pass t = some p →
    let m16 : Nat := 16 * ((s.unit t).encoder - k.position).toNat
    let near : Prop := run.pitch - run.pitch / 8 ≤ m16 ∧ m16 ≤ run.pitch + run.pitch / 8
    let double : Prop := 2 * run.pitch - run.pitch / 8 ≤ m16 ∧ m16 ≤ 2 * run.pitch + run.pitch / 8
    let seen : State := { s with timestamp := time, lines := s.lines.set t { s.line t with dirLine := .forward } }
    let counted (advance : Nat) : UnitRun :=
      { run with
        track := some ⟨k.count + advance, (s.unit t).encoder, time⟩, accepted := run.accepted + 1, spurious := 0 }
    let nearest := max 1 ((m16 + run.pitch / 2) / run.pitch)
    let frame (n : Nat) : Nat := run.f0 + (k.count + n) / run.gauge.perFrame
    let between : State :=
      raiseForPass t run.reel (frame 1) .missingPerf
        { seen with units := s.units.set t { s.unit t with run := some (counted 2) } }
    let given : UnitRun :=
      { counted nearest with
        lockRun := if run.pitch - run.pitch / 8 ≤ m16 ∧ m16 ≤ run.pitch + run.pitch / 8 then run.lockRun + 1 else 0
        intervals := run.intervals + 1 }
    let waiting : State := { seen with units := s.units.set t { s.unit t with run := some given } }
    ((s.unit t).state = .locked → ¬near → double → k.count + 2 ≤ run.countLimit →
      ((k.count + 2) % run.gauge.perFrame ≠ 0 →
        exec (.perfEdge t time .forward) s = .next (between.missedBetween t (frame 0) (frame 2))) ∧
      ((k.count + 2) % run.gauge.perFrame = 0 → p.state = .running →
        (∃ e, p.endFrame = some e ∧ frame 0 < e ∧ e < frame 2) →
        exec (.perfEdge t time .forward) s = .next (between.missedBetween t (frame 0) (frame 2 - 1)))) ∧
    (run.pitch - run.pitch / 8 ≤ m16 →
      ((s.unit t).state = .locked ∧ near ∧ run.countLimit < k.count + 1) ∨
        ((s.unit t).state = .locked ∧ ¬near ∧ double ∧ run.countLimit < k.count + 2) ∨
        ((s.unit t).state = .locked ∧ ¬near ∧ ¬double ∧ run.countLimit < k.count + nearest) ∨
        ((s.unit t).state = .reacquire ∧ run.countLimit < k.count + nearest) →
      exec (.perfEdge t time .forward) s = .next
        { seen with
          units := s.units.set t { s.unit t with run := some { run with exhausted := true } }
          passes := s.passes.set t (some { p with exhausted := true }) }) ∧
    ((s.unit t).state = .reacquire → run.pitch - run.pitch / 8 ≤ m16 → ¬(near ∧ 2 ≤ run.lockRun) →
      64 ≤ run.intervals + 1 → k.count + nearest ≤ run.countLimit →
      ((p.state = .running → ∀ e, p.endFrame = some e → ¬(frame 0 < e ∧ e ≤ frame nearest)) →
        let missed := waiting.missedFrom t (frame 0 + 1) (frame nearest - frame 0)
        let q : Pass :=
          { (missed.pass t).getD p with
            state := .ended, reason := some (.aborted .registrationFailed), tail := some false }
        exec (.perfEdge t time .forward) s = .next
          (raiseAlert .registrationFailed (some run.reel) (some (.transport t))
            { missed with
              units := missed.units.set t { missed.unit t with state := .idle, abortHold := true }
              passes := missed.passes.set t (some q)
              ports := addNotice (pairedPort t) (.passEnded t q) missed.ports })) ∧
      (p.state = .running → (∃ e, p.endFrame = some e ∧ frame 0 < e ∧ e ≤ frame nearest) →
        exec (.perfEdge t time .forward) s = .next
          (waiting.missedBetween t (frame 0) (frame nearest)))) ∧
    (∀ advance, (s.unit t).state = .locked → p.state = .running →
      (advance = 1 ∧ near) ∨ (advance = 2 ∧ ¬near ∧ double) → (k.count + advance) % run.gauge.perFrame = 0 →
      k.count + advance ≤ run.countLimit → p.endFrame = some (frame advance) →
      ∀ v q, exec (.perfEdge t time .forward) { s with passes := s.passes.set t (some { p with endFrame := none }) } =
          .next v → v.pass t = some q →
        let q' : Pass :=
          { q with
            endFrame := p.endFrame, state := .ended, reason := some .complete, tail := some false }
        exec (.perfEdge t time .forward) s = .next
          { v with
            units := v.units.set t { v.unit t with state := .idle }
            passes := v.passes.set t (some q')
            ports := addNotice (pairedPort t) (.passEnded t q') v.ports })

/-! ### The defect register (chapter 5) -/

/-- REPORT_DEFECT, its checks in order: the enumerated arguments, the reel, its renumbering, the holder, the
closing pass, the kind and the range (R4, R104). That the presence byte of the note counts as an enumerated
argument, and that these are checked first, are the model's readings (log 13). -/
def Obligations.ReportChecks : Prop :=
  ∀ (s : State) (p : Port) (reel f span kind severity noteGiven note : Nat), s.rdy p = true → holderPort p →
    (9 < kind ∨ (severity ≠ 0 ∧ severity ≠ 1 ∧ severity ≠ 255) ∨ 1 < noteGiven →
      exec (.reportDefect p reel f span kind severity noteGiven note) s = .next (s.replying p .badRequest [])) ∧
    ((∀ e ∈ s.reels, e.2.id ≠ reel) ∨ reel = 0 → kind ≤ 9 → severity = 0 ∨ severity = 1 ∨ severity = 255 →
      noteGiven ≤ 1 →
      exec (.reportDefect p reel f span kind severity noteGiven note) s = .next (s.replying p .noSuchReel [])) ∧
    (∀ i r, s.names reel i r → kind ≤ 9 → severity = 0 ∨ severity = 1 ∨ severity = 255 → noteGiven ≤ 1 →
      let answered (code : ResultCode) : Prop :=
        exec (.reportDefect p reel f span kind severity noteGiven note) s = .next (s.replying p code [])
      (r.renumbering = true → answered .renumbering) ∧
      (r.renumbering = false → r.custody.holder ≠ some p → answered .notHolder) ∧
      (r.renumbering = false → r.custody.holder = some p →
        (∃ t q, s.pass t = some q ∧ q.reel = reel ∧ q.state = .closing) → answered .passActive) ∧
      (r.renumbering = false → r.custody.holder = some p →
        (∀ t q, s.pass t = some q → q.reel = reel → q.state ≠ .closing) →
        (kind ∈ [0, 1, 2, 3, 9] → answered .notPermitted) ∧
        (kind ∉ [0, 1, 2, 3, 9] →
          span = 0 ∨ 255 < span ∨ 65534 < f + span - 1 ∨ (∃ n, r.frameCount = some n ∧ n ≤ f) →
          answered .outOfRange)))

/-- A detection that meets no entry of its kind makes a new OPEN entry in the lowest free place, after every
entry that starts at or below it; DEFECT_POOL_FULL is tested, the reel is counted again, and a report of an open
pass is counted for that pass. MARK_SPLICE is such a detection, COSMETIC and of no pass. With no free place in
the pool, or 1024 entries on the reel, the detection is lost with the outcome no entry: nothing changes, and a
request is answered POOL_FULL. MARK_SPLICE refuses a port that is not the holder, and a frame out of range (R86,
R93, R99, R100, R101, R102, R104, R115). The empty body of POOL_FULL is the model's reading (log 10). -/
def Obligations.DetectionMakesEntry : Prop :=
  ∀ (s : State) (p : Port) (reel i f n : Nat) (r : Reel), s.rdy p = true → s.names reel i r →
    r.renumbering = false →
    let room : Prop := r.defects.length < 1024 ∧ n < 4096 ∧ n ∉ s.allDefects.map (·.number) ∧
      ∀ m < n, m ∈ s.allDefects.map (·.number)
    let full : Prop := 1024 ≤ r.defects.length ∨ ∀ m < 4096, m ∈ s.allDefects.map (·.number)
    let withEntry (d : Defect) : List Defect :=
      r.defects.takeWhile (fun e => e.first ≤ d.first) ++ d :: r.defects.dropWhile (fun e => e.first ≤ d.first)
    let made (d : Defect) : State :=
      { s.took p with
        reels := tablePut s.reels i
          { r with
            defects := withEntry d
            openCount := countOpen (withEntry d)
            blockingCount := countBlocking (withEntry d) } }
    (∀ span kind severity noteGiven note, holderPort p → r.custody.holder = some p →
      (∀ t q, s.pass t = some q → q.reel = reel → q.state ≠ .closing) →
      kind ∈ [DefectKind.tear, .scratch, .dirt, .emulsionLoss, .warp] →
      (∀ e ∈ r.defects, e.kind ≠ kind) → 1 ≤ span → span ≤ 255 → f + span ≤ 65535 →
      (∀ c, r.frameCount = some c → f < c) → severity = 0 ∨ severity = 1 ∨ severity = 255 → noteGiven ≤ 1 →
      let report : Instr := .reportDefect p reel f span kind.code severity noteGiven note
      let entry : Defect :=
        { number := n, first := f, span := span, kind := kind, origin := .station p, state := .opened, attempts := 0,
          severity := if severity = 0 then .blocking else if severity = 1 then .cosmetic else kind.severity,
          pass := ((reportPass p reel s).map (·.2.number)).getD 0, generation := r.generation,
          note := if noteGiven = 1 then some note else none }
      let t := testDefectPool (made entry)
      (room → exec report s = .next
        ((match reportPass p reel s with
          | none => t
          | some (u, q) =>
            { t with
              passes := s.passes.set u (some { q with defectsRaised := min 65535 (q.defectsRaised + 1) }) }).replied
          p .ok (u8 0 ++ u16 n))) ∧
      (full → exec report s = .next (s.replying p .poolFull []))) ∧
    (p = .p2 ∨ p = .p3 →
      (r.custody.holder ≠ some p → exec (.markSplice p reel f) s = .next (s.replying p .notHolder [])) ∧
      (r.custody.holder = some p → 65534 < f ∨ (∃ c, r.frameCount = some c ∧ c ≤ f) →
        exec (.markSplice p reel f) s = .next (s.replying p .outOfRange []))) ∧
    (∀ x : Detection, x.reel = reel → (∀ e ∈ r.defects, e.kind ≠ x.kind) → full → raiseDetection x s = (s, .noEntry)) ∧
    (p = .p2 ∨ p = .p3 → r.custody.holder = some p → (∀ e ∈ r.defects, e.kind ≠ .splice) → f ≤ 65534 →
      (∀ c, r.frameCount = some c → f < c) →
      (full → exec (.markSplice p reel f) s = .next (s.replying p .poolFull [])) ∧
      (room → exec (.markSplice p reel f) s = .next
        ((testDefectPool (made
          { number := n, first := f, span := 1, kind := .splice, severity := .cosmetic, origin := .station p,
            state := .opened, attempts := 0, pass := 0, note := none, generation := r.generation })).replied
          p .ok (u8 0 ++ u16 n))))

/-- A detection over an entry of its kind makes none: it is merged into an OPEN entry that covers its first
frame, which grows to its last frame; it reopens a REPAIRED entry within one frame of it, and defers it at the
third attempt with REPAIR_EXHAUSTED; it grows an OPEN entry of a coalescing kind that ends just before it (R96,
R97, R98). That a deferral leaves the note as it was is the model's reading (log 27). -/
def Obligations.DetectionMeetsEntry : Prop :=
  ∀ (s : State) (x : Detection) (i : Nat) (r : Reel) (pre post : List Defect) (d : Defect), s.names x.reel i r →
    r.defects = pre ++ d :: post → d.kind = x.kind → (∀ e ∈ pre ++ post, e.kind ≠ x.kind) → 1 ≤ d.span → 1 ≤ x.span →
    let raised := raiseDetection x s
    let last := x.f + x.span - 1
    let absorbed : Defect :=
      { d with
        severity := if x.severity = .blocking then .blocking else d.severity
        note := if d.note = none then x.note else d.note }
    let becomes (e : Defect) : State := s.putReel i (r.withDefects (pre ++ e :: post))
    (d.state = .opened → d.first ≤ x.f → x.f < d.first + d.span →
      raised = (becomes { absorbed with
        span := if d.first + d.span ≤ last then min 255 (last + 1 - d.first) else d.span }, .merge d.number)) ∧
    ((∃ c, d.state = .claimed c) ∨ d.state = .deferred → d.first ≤ x.f → x.f < d.first + d.span →
      raised = (becomes absorbed, .merge d.number)) ∧
    (d.state = .repaired → d.first ≤ last + 1 → x.f ≤ d.first + d.span →
      (d.attempts < 2 →
        raised = (becomes { absorbed with state := .opened, attempts := d.attempts + 1 }, .reopening d.number)) ∧
      (2 ≤ d.attempts →
        raised = (raiseAlert .repairExhausted (some x.reel) none
          (becomes { absorbed with state := .deferred, attempts := d.attempts + 1, note := d.note }),
            .deferral d.number))) ∧
    (d.state = .opened → x.kind ∈ [DefectKind.edgeDamage, .missedCapture, .scratch, .dirt] →
      d.first + d.span = x.f → d.span + x.span ≤ 255 →
      raised = (becomes { absorbed with span := d.span + x.span }, .coalesce d.number))

/-- CLAIM takes an OPEN entry for its reel's holder, UNCLAIM and REPORT_REPAIR end a claim of the claimant,
DEFER sets an OPEN or REPAIRED entry aside; each after the entry and RENUMBERING checks, and each with the
counts of the reel brought up to date (R92, R102, R103, R105, R106, R108). The empty bodies are the model's
reading (log 9). -/
def Obligations.EntryRequests : Prop :=
  ∀ (s : State) (p : Port) (n : Nat), s.rdy p = true →
    (∀ c, c = .deferEntry p n ∧ p ∈ [Port.p2, .p3, .p4] ∨
        c ∈ [Instr.claim p n, .unclaim p n, .reportRepair p n] ∧ p ∈ [Port.p2, .p3] →
      (4095 < n → exec c s = .next (s.replying p .outOfRange [])) ∧
      (n ≤ 4095 → n ∉ s.allDefects.map (·.number) → exec c s = .next (s.replying p .noSuchEntry [])) ∧
      (∀ i r d, n ≤ 4095 → s.findEntry n = some (i, r, d) → r.renumbering = true →
        exec c s = .next (s.replying p .renumbering []))) ∧
    (∀ i r d, n ≤ 4095 → s.findEntry n = some (i, r, d) → r.renumbering = false →
      let becomes (v : DefectState) : State :=
        let ds := r.defects.map (fun e => if e.number = n then { e with state := v } else e)
        { s with
          reels := tablePut s.reels i
            { r with defects := ds, openCount := countOpen ds, blockingCount := countBlocking ds }
          ports := s.answered p .ok [] }
      (p = .p2 ∨ p = .p3 →
        exec (.claim p n) s = .next
          (if r.custody.holder ≠ some p then s.replying p .notHolder []
           else if d.state = .opened then becomes (.claimed p)
           else s.replying p .wrongState []) ∧
        (d.state = .claimed p →
          exec (.unclaim p n) s = .next (becomes .opened) ∧
          exec (.reportRepair p n) s = .next (becomes .repaired)) ∧
        (∀ q, d.state = .claimed q → q ≠ p →
          exec (.unclaim p n) s = .next (s.replying p .notHolder []) ∧
          exec (.reportRepair p n) s = .next (s.replying p .notHolder [])) ∧
        ((∀ q, d.state ≠ .claimed q) →
          exec (.unclaim p n) s = .next (s.replying p .wrongState []) ∧
          exec (.reportRepair p n) s = .next (s.replying p .wrongState []))) ∧
      (p = .p2 ∨ p = .p3 ∨ p = .p4 →
        exec (.deferEntry p n) s = .next
          (if d.state = .opened ∨ d.state = .repaired then becomes .deferred else s.replying p .wrongState [])))

/-- PURGE_VERIFIED frees the VERIFIED and REMOVED entries of a reel, keeps the rest in order and its counts as
they were, tests DEFECT_POOL_FULL, and answers with the number freed; a pass in CLOSING refuses it (R100, R112).
That a purge which frees nothing tests no condition is the model's reading (log 24). -/
def Obligations.PurgeFrees : Prop :=
  ∀ (s : State) (p : Port) (reel i : Nat) (r : Reel), s.rdy p = true → p = .p2 ∨ p = .p3 ∨ p = .p4 →
    s.names reel i r → r.renumbering = false →
    ((∃ t q, s.pass t = some q ∧ q.reel = reel ∧ q.state = .closing) →
      exec (.purgeVerified p reel) s = .next (s.replying p .passActive [])) ∧
    ((∀ t q, s.pass t = some q → q.reel = reel → q.state ≠ .closing) →
      let kept := r.defects.filter (fun d => d.state ≠ .verified && d.state ≠ .removed)
      let freed := r.defects.length - kept.length
      let purged : State := { s.took p with reels := tablePut s.reels i { r with defects := kept } }
      exec (.purgeVerified p reel) s = .next
        ((if freed = 0 then s.took p else testDefectPool purged).replied p .ok (u16 freed)))

/-! ### Frame removal (chapter 6) -/

/-- REMOVE_FRAMES, its checks in order, and its acceptance: RENUMBERING is set, the pending record is filled
with the opposite generation, and the edits held for the reel are abandoned with a notice to P4 (R117, R118).
The two bytes of each number in the bodies are the model's reading (logs 9 and 12). -/
def Obligations.RemoveFramesAccepts : Prop :=
  ∀ (s : State) (p : Port) (reel i f n : Nat) (r : Reel), s.rdy p = true → p = .p2 ∨ p = .p3 → s.names reel i r →
    r.renumbering = false →
    exec (.removeFrames p reel f n) s = .next
      (if r.custody.holder ≠ some p then s.replying p .notHolder []
       else if r.custody ≠ .held p then s.replying p .wrongState []
       else match s.pendingRenumber with
         | some w => s.replying p .renumbering (u32 w.reel)
         | none =>
           if n = 0 ∨ 64 < n then s.replying p .outOfRange []
           else if r.countConfirmed = false then s.replying p .countUnconfirmed []
           else match r.frameCount with
             | none => s.replying p .outOfRange []
             | some c =>
               if c < f + n then s.replying p .outOfRange []
               else
                 let accepted : State :=
                   { s.took p with
                     reels := tablePut s.reels i { r with renumbering := true }
                     pendingRenumber := some { reel := reel, f := f, n := n, target := !r.generation }
                     renumberWork := some { stage := .defectWalk, bench := p } }
                 let abandoned : State := match s.heldEdits with
                   | some h =>
                     if h.reel = reel then
                       { accepted with
                         heldEdits := none
                         ports := addNotice .p4 (.editAbandoned reel h.edits.length .removeFrames) (s.taking p) }
                     else accepted
                   | none => accepted
                 abandoned.replied p .accepted (u16 f ++ u16 n ++ u16 (c - n)))

/-- The defect walk adjusts each entry of the reel that does not carry the target generation by where its frames
a to b lie relative to the removed range f to g, in the cases of R120, and gives it the target; the counts wait
for the completion; with no renumbering at this step there is no walk (R119, R120, R121). -/
def Obligations.DefectWalkAdjusts : Prop :=
  ∀ (s : State), s.phase = .running →
    ((∀ w k, s.pendingRenumber = some w → s.renumberWork = some k → k.stage ≠ .defectWalk) →
      exec .defectWalk s = .next s) ∧
    (∀ w bench i r, s.pendingRenumber = some w → s.renumberWork = some ⟨.defectWalk, bench⟩ →
      s.names w.reel i r → 1 ≤ w.n → (∀ d ∈ r.defects, 1 ≤ d.span) →
      ∃ ds : List Defect,
        exec .defectWalk s = .next
          { s with
            reels := tablePut s.reels i { r with defects := ds }
            renumberWork := some ⟨.sceneWalk, bench⟩ } ∧
        ds.length = r.defects.length ∧
        ∀ (j : Nat) (d : Defect), r.defects[j]? = some d →
          let a := d.first
          let b := d.first + d.span - 1
          let g := w.f + w.n - 1
          let kept : Defect := { d with generation := w.target }
          (d.generation = w.target → ds[j]? = some d) ∧
          (d.generation ≠ w.target → d.state = .removed →
            ds[j]? = some { kept with first := if g < a then a - w.n else if w.f ≤ a then w.f else a }) ∧
          (d.generation ≠ w.target → d.state ≠ .removed →
            (b < w.f → ds[j]? = some kept) ∧
            (w.f ≤ a → b ≤ g → ds[j]? = some { kept with first := w.f, state := .removed }) ∧
            (a < w.f → w.f ≤ b → b ≤ g → ds[j]? = some { kept with span := w.f - a }) ∧
            (w.f ≤ a → a ≤ g → g < b → ds[j]? = some { kept with first := w.f, span := b - g }) ∧
            (a < w.f → g < b → ds[j]? = some { kept with span := d.span - w.n }) ∧
            (g < a → ds[j]? = some { kept with first := a - w.n })))

/-- The scene walk and the completion of a renumbering. Of the scenes that start in f to g + 1 the one with the
greatest start is kept and starts at f, and the others are freed; scenes after them move down by n; each keeps
its place and its lights and takes the target; then every fade but the last is at most the room before the next
scene. When a scene was freed SCENE_POOL_FULL is tested. The frame count falls by n, the confirmation, the grade
lock and graded-done are cleared, the entries are counted, RENUMBERING and the pending record are cleared, and
P4 and the bench are told. With no renumbering at this step there is no walk (R119, R122, R123, R124, R125,
R132). The pool is tested only when a scene was freed (R123; log 24). -/
def Obligations.SceneWalks : Prop :=
  ∀ (s : State), s.phase = .running →
    ((∀ w k, s.pendingRenumber = some w → s.renumberWork = some k → k.stage ≠ .sceneWalk) →
      exec .sceneWalk s = .next s) ∧
    (∀ (w : Renumber) (bench : Port) (i : Nat) (r : Reel) (below inside kept after : List Scene),
      s.pendingRenumber = some w → s.renumberWork = some ⟨.sceneWalk, bench⟩ → s.names w.reel i r →
      r.generation ≠ w.target → r.scenes = below ++ inside ++ kept ++ after →
      (∀ c ∈ r.scenes, c.generation ≠ w.target) →
      (∀ c ∈ below, c.start < w.f) → (∀ c ∈ inside, w.f ≤ c.start ∧ ∃ d ∈ kept, c.start < d.start) →
      (∀ d ∈ kept, w.f ≤ d.start ∧ d.start ≤ w.f + w.n) → kept.length ≤ 1 → (∀ c ∈ after, w.f + w.n < c.start) →
      let moved : List Scene :=
        below.map (fun c => { c with generation := w.target }) ++
          kept.map (fun c => { c with start := w.f, generation := w.target }) ++
          after.map (fun c => { c with start := c.start - w.n, generation := w.target })
      let scenes : List Scene := moved.mapIdx (fun j c =>
        { c with
          fade := match moved[j + 1]? with
            | some next => min c.fade (next.start - c.start)
            | none => c.fade })
      let count := r.frameCount.map (fun c => c - w.n)
      let walked : State :=
        { s with reels := tablePut s.reels i { r with scenes := scenes, sceneCount := scenes.length } }
      let tested := if inside = [] then walked else testScenePool walked
      let told := if r.gradeLocked then addNotice .p4 (.gradeUnlocked w.reel) tested.ports else tested.ports
      exec .sceneWalk s = .next
        { tested with
          reels := tablePut s.reels i
            { r with
              scenes := scenes, sceneCount := scenes.length, frameCount := count
              countConfirmed := false, gradedDone := false, gradeLocked := false, generation := w.target
              openCount := countOpen r.defects, blockingCount := countBlocking r.defects, renumbering := false }
          pendingRenumber := none
          renumberWork := none
          ports := addNotice bench (.renumberDone w.reel (count.getD 0)) told })

/-! ### The scene store and the lights (chapter 7) -/

/-- An edit in the order of its checks, then held: added to the buffer of its reel, POOL_FULL with 32 held, or
opening the buffer anew with the edits of another reel discarded and P4 told; lights, fade and trims are clamped
first, and the reply is CLAMPED with the values before its body when any was (R133, R134, R138, R141). The
refusals of an edit, in order: BAD_REQUEST for hold, GRADE_LOCKED, OUT_OF_RANGE for the start frame; each
changes no state (R133). The bytes of the bodies are the model's reading (log 10). -/
def Obligations.EditsHeldOrRefused : Prop :=
  (∀ (s : State) (reel i start : Nat) (l : Channels Nat) (t : Channels Int) (fade : Nat) (r : Reel),
     s.rdy .p4 = true → s.names reel i r → r.renumbering = false → r.gradeLocked = false →
     let lights : Channels Nat := ⟨min 50 l.r, min 50 l.g, min 50 l.b⟩
     let trim : Channels Int := ⟨max (-12) (min 12 t.r), max (-12) (min 12 t.g), max (-12) (min 12 t.b)⟩
     let setValues := u8 lights.r ++ u8 lights.g ++ u8 lights.b ++ u8 (min 48 fade)
     let held (c : Instr) (e : Edit) (clamped : Bool) (values : Bytes) : Prop :=
       exec c s = .next
         (let code : ResultCode := if clamped then .clamped else .ok
          let values := if clamped then values else []
          match s.heldEdits with
          | none =>
            ({ s.took .p4 with heldEdits := some ⟨reel, [e]⟩ } : State).replied .p4 code
              (values ++ u32 reel ++ u8 1)
          | some h =>
            if h.reel = reel then
              if 32 ≤ h.edits.length then s.replying .p4 .poolFull (u8 0)
              else
                ({ s.took .p4 with heldEdits := some ⟨reel, h.edits ++ [e]⟩ } : State).replied .p4 code
                  (values ++ u32 reel ++ u8 (h.edits.length + 1))
            else
              ({ s.took .p4 with
                heldEdits := some ⟨reel, [e]⟩
                ports := addNotice .p4 (.editAbandoned h.reel h.edits.length .otherReel) (s.taking .p4) } :
                  State).replied .p4 code (values ++ u32 reel ++ u8 1))
     (start ≤ 65534 → (∀ n, r.frameCount = some n → start < n) →
       held (.setScene .p4 reel start l.r l.g l.b fade 1) (.setScene start lights (min 48 fade))
         (decide (lights ≠ l ∨ 48 < fade)) setValues ∧
       ((∃ c ∈ editView r s, c.start = start) →
         held (.deleteScene .p4 reel start 1) (.deleteScene start) false []) ∧
       ((∀ c ∈ editView r s, c.start ≠ start) →
         exec (.deleteScene .p4 reel start 1) s = .next (s.replying .p4 .noSuchScene []))) ∧
     held (.setTrim .p4 reel t.r t.g t.b 1) (.setTrim trim) (decide (trim ≠ t))
       (leInt 1 trim.r ++ leInt 1 trim.g ++ leInt 1 trim.b)) ∧
  (∀ (s : State) (reel i start r g b fade hold : Nat) (t : Channels Int) (rec : Reel) (c : Instr),
     s.rdy .p4 = true →
     c ∈ [Instr.setScene .p4 reel start r g b fade hold, .deleteScene .p4 reel start hold,
       .setTrim .p4 reel t.r t.g t.b hold] →
     (1 < hold → exec c s = .next (s.replying .p4 .badRequest [])) ∧
     (hold ≤ 1 → (∀ e ∈ s.reels, e.2.id ≠ reel) → exec c s = .next (s.replying .p4 .noSuchReel [])) ∧
     (hold ≤ 1 → s.names reel i rec → rec.renumbering = true → exec c s = .next (s.replying .p4 .renumbering [])) ∧
     (hold ≤ 1 → s.names reel i rec → rec.renumbering = false → rec.gradeLocked = true →
       exec c s = .next (s.replying .p4 .gradeLocked [])) ∧
     (hold ≤ 1 → s.names reel i rec → rec.renumbering = false → rec.gradeLocked = false →
       65534 < start ∨ (∃ n, rec.frameCount = some n ∧ n ≤ start) → c ≠ .setTrim .p4 reel t.r t.g t.b hold →
       exec c s = .next (s.replying .p4 .outOfRange [])))

/-- An edit with hold = no and no edit held for its reel is a batch of one: SET_SCENE replaces the lights and
fade of a scene at its start frame in its place, or makes a new scene in list order in the lowest free place;
DELETE_SCENE frees the place; SET_TRIM sets the trims; the buffer of another reel is left, and SCENE_POOL_FULL
is tested when the free count changes (R130, R132, R135, R136, R137, R139, R140). A commit takes the edits held
for its reel and then its own, clamped first, as one batch. The last edit that names a start frame decides what
stands there, the others change nothing; a scene replaced keeps its place, a new one takes a place of its own;
the list stays rising, and the trim is that of the last SET_TRIM. The buffer of the reel is emptied. The reply
is CLAMPED, with the clamped values before its body, when the request was clamped; SCENE_POOL_FULL is tested
when the length changes (R130, R132, R134, R135, R136, R137, R139, R140). A commit, of any of the three edits
and with or without edits held for its reel, that meets a limit changes no state and keeps the held edits:
OUT_OF_RANGE with the position of the first SET_SCENE of the batch at or above the frame count, then POOL_FULL
naming the reel or the pool; so a new scene alone on a list of 512, or in a pool with no free place (R139,
R140). The bytes of the bodies, the places of new scenes and the limit named when both are passed are the
model's readings and choices (logs 10, 16 and 30). -/
def Obligations.EditsCommit : Prop :=
  (∀ (s : State) (reel i start fade : Nat) (l : Channels Nat) (t : Channels Int) (r : Reel) (below after : List Scene),
     s.rdy .p4 = true → s.names reel i r → r.renumbering = false → r.gradeLocked = false →
     (∀ h, s.heldEdits = some h → h.reel ≠ reel) →
     (∀ c ∈ s.allScenes, c.place < 2048) → (∀ c ∈ below, c.start < start) → (∀ c ∈ after, start < c.start) →
     l.r ≤ 50 → l.g ≤ 50 → l.b ≤ 50 → fade ≤ 48 →
     -12 ≤ t.r → t.r ≤ 12 → -12 ≤ t.g → t.g ≤ 12 → -12 ≤ t.b → t.b ≤ 12 →
     start ≤ 65534 → (∀ n, r.frameCount = some n → start < n) →
     let trims (x : Channels Int) := leInt 1 x.r ++ leInt 1 x.g ++ leInt 1 x.b
     let listing (scenes : List Scene) (trim : Channels Int) : State :=
       { s.took .p4 with
         reels := tablePut s.reels i { r with scenes := scenes, sceneCount := scenes.length, trim := trim } }
     let answer (scenes : List Scene) (trim : Channels Int) (u : State) : State :=
       u.replied .p4 .ok (u8 1 ++ u16 scenes.length ++ trims trim ++ u16 u.sceneFree)
     (∀ c, r.scenes = below ++ c :: after → c.start = start → r.scenes.length ≤ 512 →
       (let scenes := below ++ { c with lights := l, fade := fade } :: after
        exec (.setScene .p4 reel start l.r l.g l.b fade 0) s = .next (answer scenes r.trim (listing scenes r.trim))) ∧
       (let scenes := below ++ after
        exec (.deleteScene .p4 reel start 0) s = .next
         (answer scenes r.trim (testScenePool (listing scenes r.trim))))) ∧
     (∀ k, r.scenes = below ++ after → r.scenes.length < 512 → 0 < s.sceneFree →
       k < 2048 → (∀ c ∈ s.allScenes, c.place ≠ k) → (∀ m < k, ∃ c ∈ s.allScenes, c.place = m) →
       let scenes :=
         below ++ { place := k, start := start, lights := l, fade := fade, generation := r.generation } :: after
       exec (.setScene .p4 reel start l.r l.g l.b fade 0) s = .next
         (answer scenes r.trim (testScenePool (listing scenes r.trim)))) ∧
     (r.scenes.length ≤ 512 →
       exec (.setTrim .p4 reel t.r t.g t.b 0) s = .next (answer r.scenes t (listing r.scenes t)))) ∧
  (∀ (s : State) (reel i : Nat) (r : Reel) (c : Instr) (e : Edit) (clamped : Bool) (values : Bytes),
     s.rdy .p4 = true → s.names reel i r → r.renumbering = false → r.gradeLocked = false → scenesRise r.scenes →
     (∀ x ∈ s.allScenes, x.place < 2048) → (s.allScenes.map (·.place)).Nodup →
     let outside (start : Nat) : Prop := 65534 < start ∨ ∃ n, r.frameCount = some n ∧ n ≤ start
     (∃ (start : Nat) (l : Channels Nat) (fade : Nat),
         let lights : Channels Nat := ⟨min 50 l.r, min 50 l.g, min 50 l.b⟩
         c = .setScene .p4 reel start l.r l.g l.b fade 0 ∧ e = .setScene start lights (min 48 fade) ∧ ¬outside start ∧
           clamped = decide (lights ≠ l ∨ 48 < fade) ∧
           values = u8 lights.r ++ u8 lights.g ++ u8 lights.b ++ u8 (min 48 fade)) ∨
       (∃ start : Nat,
         c = .deleteScene .p4 reel start 0 ∧ e = .deleteScene start ∧ ¬outside start ∧
           (∃ x ∈ editView r s, x.start = start) ∧ clamped = false ∧ values = []) ∨
       (∃ t : Channels Int,
         let trim : Channels Int := ⟨max (-12) (min 12 t.r), max (-12) (min 12 t.g), max (-12) (min 12 t.b)⟩
         c = .setTrim .p4 reel t.r t.g t.b 0 ∧ e = .setTrim trim ∧ clamped = decide (trim ≠ t) ∧
           values = leInt 1 trim.r ++ leInt 1 trim.g ++ leInt 1 trim.b) →
     let batch := s.heldFor reel ++ [e]
     let result := (applyEdits r.generation (r.scenes, r.trim) batch).1
     (∀ n, r.frameCount = some n → ∀ start lights fade, Edit.setScene start lights fade ∈ batch → start < n) →
     result.length ≤ 512 → result.length ≤ r.scenes.length + s.sceneFree →
     ∃ (scenes : List Scene) (trim : Channels Int),
       let committed : State :=
         { s.took .p4 with
           reels := tablePut s.reels i { r with scenes := scenes, sceneCount := scenes.length, trim := trim }
           heldEdits := if ∃ h ∈ s.heldEdits, h.reel = reel then none else s.heldEdits }
       let tested := if scenes.length = r.scenes.length then committed else testScenePool committed
       exec c s = .next
         (tested.replied .p4 (if clamped then .clamped else .ok)
           ((if clamped then values else []) ++ u8 batch.length ++ u16 scenes.length ++
             leInt 1 trim.r ++ leInt 1 trim.g ++ leInt 1 trim.b ++ u16 tested.sceneFree)) ∧
       scenesRise scenes ∧
       (∀ x ∈ scenes, x.place < 2048) ∧ (committed.allScenes.map (·.place)).Nodup ∧
       (∀ f, (∀ x ∈ batch, x ≠ .deleteScene f ∧ ∀ l n, x ≠ .setScene f l n) →
         ∀ x : Scene, x.start = f → (x ∈ scenes ↔ x ∈ r.scenes)) ∧
       (∀ pre post f, (∀ x ∈ post, x ≠ Edit.deleteScene f ∧ ∀ l n, x ≠ .setScene f l n) →
         (batch = pre ++ .deleteScene f :: post → ∀ x ∈ scenes, x.start ≠ f) ∧
         (∀ l n, batch = pre ++ .setScene f l n :: post →
           ∃ x ∈ scenes, x.start = f ∧ x.lights = l ∧ x.fade = n ∧
             ((∃ y ∈ r.scenes, y.start = f) ∧ Edit.deleteScene f ∉ batch →
               ∃ y ∈ r.scenes, x = { y with lights := l, fade := n }) ∧
             (¬((∃ y ∈ r.scenes, y.start = f) ∧ Edit.deleteScene f ∉ batch) → x.generation = r.generation))) ∧
       (∀ pre t post, batch = pre ++ .setTrim t :: post → (∀ x ∈ post, ∀ u, x ≠ .setTrim u) → trim = t) ∧
       ((∀ x ∈ batch, ∀ u, x ≠ .setTrim u) → trim = r.trim)) ∧
  (∀ (s : State) (reel i : Nat) (r : Reel) (c : Instr) (e : Edit), s.rdy .p4 = true → s.names reel i r →
     r.renumbering = false → r.gradeLocked = false →
     let inside (start : Nat) : Prop := start ≤ 65534 ∧ ∀ n, r.frameCount = some n → start < n
     (∃ (start : Nat) (l : Channels Nat) (fade : Nat),
         c = .setScene .p4 reel start l.r l.g l.b fade 0 ∧ inside start ∧
           e = .setScene start ⟨min 50 l.r, min 50 l.g, min 50 l.b⟩ (min 48 fade)) ∨
       (∃ start : Nat,
         c = .deleteScene .p4 reel start 0 ∧ inside start ∧ (∃ x ∈ editView r s, x.start = start) ∧
           e = .deleteScene start) ∨
       (∃ t : Channels Int,
         c = .setTrim .p4 reel t.r t.g t.b 0 ∧
           e = .setTrim ⟨max (-12) (min 12 t.r), max (-12) (min 12 t.g), max (-12) (min 12 t.b)⟩) →
     let batch := s.heldFor reel ++ [e]
     let result := (applyEdits r.generation (r.scenes, r.trim) batch).1
     (∀ n j, r.frameCount = some n →
       (∃ start lights fade, batch[j]? = some (.setScene start lights fade) ∧ n ≤ start) →
       (∀ m < j, ∀ start lights fade, batch[m]? = some (.setScene start lights fade) → start < n) →
       exec c s = .next (s.replying .p4 .outOfRange (u8 (j + 1)))) ∧
     ((∀ n, r.frameCount = some n → ∀ start lights fade, .setScene start lights fade ∈ batch → start < n) →
       (512 < result.length → exec c s = .next (s.replying .p4 .poolFull (u8 1))) ∧
       (result.length ≤ 512 → r.scenes.length + s.sceneFree < result.length →
         exec c s = .next (s.replying .p4 .poolFull (u8 2)))) ∧
     (∀ start lights fade, e = .setScene start lights fade → s.heldFor reel = [] → (∀ x ∈ r.scenes, x.start ≠ start) →
       (512 ≤ r.scenes.length → exec c s = .next (s.replying .p4 .poolFull (u8 1))) ∧
       (r.scenes.length < 512 → s.sceneFree = 0 → exec c s = .next (s.replying .p4 .poolFull (u8 2)))))

/-- ABANDON_EDIT empties the buffer; LOCK_GRADE refuses EDIT_OPEN, then COUNT_UNCONFIRMED, and locks the grade;
UNLOCK_GRADE refuses a reel with an open graded pass, and unlocks it with no notice (R141, R142, R143). The
bytes of the bodies are the model's reading (logs 9 and 10). -/
def Obligations.AbandonLockUnlock : Prop :=
  ∀ (s : State), s.rdy .p4 = true →
    exec (.abandonEdit .p4) s = .next
      (({ s.took .p4 with heldEdits := none } : State).replied .p4 .ok
        (match s.heldEdits with
          | some h => u32 h.reel ++ u8 h.edits.length
          | none => [0, 0, 0, 0, 0])) ∧
    (∀ reel i r, s.names reel i r → r.renumbering = false →
      exec (.lockGrade .p4 reel) s = .next
        (if s.heldFor reel ≠ [] then s.replying .p4 .editOpen []
         else if r.countConfirmed = false then s.replying .p4 .countUnconfirmed []
         else
           ({ s.took .p4 with reels := tablePut s.reels i { r with gradeLocked := true } } : State).replied .p4 .ok
             (u16 r.sceneCount ++ leInt 1 r.trim.r ++ leInt 1 r.trim.g ++ leInt 1 r.trim.b)) ∧
      ((∃ t q, s.pass t = some q ∧ q.reel = reel ∧ q.kind = .graded) →
        exec (.unlockGrade .p4 reel) s = .next (s.replying .p4 .passActive [])) ∧
      ((∀ t q, s.pass t = some q → q.reel = reel → q.kind ≠ .graded) →
        exec (.unlockGrade .p4 reel) s = .next
          (({ s.took .p4 with reels := tablePut s.reels i { r with gradeLocked := false } } : State).replied .p4
            .ok [])))

/-- The effective lights of a frame: with no governing scene, as with no scene at all, the trimmed neutral
lights; in the fade of its scene the step from the trimmed lights before it, rounded to nearest with halves away
from zero; else the trimmed lights of its scene (R144, R145). -/
def Obligations.EffectiveLights : Prop :=
  ∀ (f : Nat) (t : Channels Int) (cs : List Scene), cs.Pairwise (fun a b => a.start < b.start) →
    let light (v : Nat) (x : Int) : Int := max 0 (min 50 ((v : Int) + x))
    (cs = [] ∨ (∀ d ∈ cs, f < d.start) →
      (lightsAt f cs t).r = (light 25 t.r).toNat ∧ (lightsAt f cs t).g = (light 25 t.g).toNat ∧
        (lightsAt f cs t).b = (light 25 t.b).toNat) ∧
    (∀ below c after, cs = below ++ c :: after → c.start ≤ f → (∀ d ∈ after, f < d.start) →
      let fade := match after.head? with
        | some d => min c.fade (d.start - c.start)
        | none => c.fade
      let before (channel : Channels Nat → Nat) : Nat := match below.getLast? with
        | some d => channel d.lights
        | none => 25
      (c.start + fade ≤ f →
        (lightsAt f cs t).r = (light c.lights.r t.r).toNat ∧ (lightsAt f cs t).g = (light c.lights.g t.g).toNat ∧
          (lightsAt f cs t).b = (light c.lights.b t.b).toNat) ∧
      (f < c.start + fade → ∀ (channel : Channels Nat → Nat) (x : Int),
        (channel = (·.r) ∧ x = t.r) ∨ (channel = (·.g) ∧ x = t.g) ∨ (channel = (·.b) ∧ x = t.b) →
        let la := light (before channel) x
        let lb := light (channel c.lights) x
        let steps := (f - c.start + 1) * (lb - la).natAbs
        let moved := (2 * steps + (fade + 1)) / (2 * (fade + 1))
        (channel (lightsAt f cs t) : Int) = if la ≤ lb then la + moved else la - moved))

/-- The gain of an effective light in the four steps of R147; it rises with the light at every step. -/
def Obligations.GainSteps : Prop :=
  ∀ light : Nat, light ≤ 50 →
    let k : Int := (light : Int) - 25
    let q : Int := k.fdiv 12
    let r : Nat := (k - 12 * q).toNat
    let m : Nat := [4096, 4340, 4598, 4871, 5161, 5468, 5793, 6137, 6502, 6889, 7298, 7732].getD r 0
    r ≤ 11 ∧
    (0 ≤ q → gainOf light = m * 2 ^ q.toNat) ∧
    (q < 0 → gainOf light = (m + 2 ^ (-q - 1).toNat) / 2 ^ (-q).toNat) ∧
    (light < 50 → gainOf light < gainOf (light + 1))

/-! ### The alert board (chapter 8) -/

/-- A raise that matches no alert on the board: appended with ALERT_RAISED while 22 others or fewer stand and
BOARD_FULL is absent; lost with BOARD_FULL appended in its place at 23; lost and counted by BOARD_FULL once it
stands (R154). A raise that matches an alert of the board is merged into it: its count rises, saturating at 255,
and its transport or port goes when the raise names a different one; no notice is placed and nothing else
changes (R153). -/
def Obligations.AlertRaises : Prop :=
  (∀ (s : State) (code : AlertCode) (reel : Option Nat) (place : Option AlertPlace),
     (∀ a ∈ s.alerts, ¬(a.code = code ∧ a.reel = reel)) →
     let others := (s.alerts.filter (fun a => a.code ≠ .boardFull)).length
     let append (a : Alert) : State :=
       { s with
         alerts := s.alerts ++ [a]
         ports := addNoticeAll (.alertRaised a.code a.reel a.place (s.alerts.length + 1)) s.ports }
     ((∀ a ∈ s.alerts, a.code ≠ .boardFull) → others ≤ 22 →
       raiseAlert code reel place s =
         append { code := code, reel := reel, place := place, minute := s.suiteMinute, count := 1 }) ∧
     ((∀ a ∈ s.alerts, a.code ≠ .boardFull) → others = 23 →
       raiseAlert code reel place s =
         append { code := .boardFull, reel := none, place := none, minute := s.suiteMinute, count := 1 }) ∧
     ((∃ a ∈ s.alerts, a.code = .boardFull) →
       raiseAlert code reel place s =
         { s with
           alerts := s.alerts.map (fun a =>
             if a.code = .boardFull then { a with count := min 255 (a.count + 1) } else a) })) ∧
  (∀ (s : State) (code : AlertCode) (reel : Option Nat) (place : Option AlertPlace) (pre post : List Alert) (a : Alert),
     s.alerts = pre ++ a :: post → a.code = code → a.reel = reel →
     (∀ b ∈ pre ++ post, ¬(b.code = code ∧ b.reel = reel)) →
     raiseAlert code reel place s =
       { s with
         alerts := pre ++
           { a with
             count := min 255 (a.count + 1)
             place := if place ≠ none ∧ place ≠ a.place then none else a.place } :: post })

/-- CLEAR_ALERT, its checks in order: a latched alert is taken off the board and all six ports are told; when
that brings the others to 19 with BOARD_FULL on the board, BOARD_FULL goes in the same event and the sweep
follows. The suite minute advances at each full minute and wraps (R151, R155, R156, R157). The sweep: MOVE_FAULT
and then EXPOSURE_LIMIT for each reel in the order of the record index, DEFECT_POOL_FULL and SCENE_POOL_FULL,
each whose condition holds and which is absent from the board, in that order. They are appended while 22 others
or fewer stand; the first for which there is no room becomes BOARD_FULL, which counts the rest (R154, R156,
R158). The raise count in 1 byte is the model's reading (log 12); that SUITE_MINUTE starts the seconds anew is
its choice (log 22). -/
def Obligations.ClearAlertRemoves : Prop :=
  (∀ (s : State),
     (∀ p code reel, s.rdy p = true →
       let named : Option Nat := if reel = 0 then none else some reel
       (13 < code → exec (.clearAlert p code reel) s = .next (s.replying p .badRequest [])) ∧
       (∀ c, alertCodeOf code = some c →
         ((∀ a ∈ s.alerts, ¬(a.code = c ∧ a.reel = named)) →
           exec (.clearAlert p code reel) s = .next (s.replying p .noSuchEntry [])) ∧
         (∀ pre a post, s.alerts = pre ++ a :: post → a.code = c → a.reel = named →
           (∀ b ∈ pre ++ post, ¬(b.code = c ∧ b.reel = named)) →
           (9 ≤ code → exec (.clearAlert p code reel) s = .next (s.replying p .stillActive [])) ∧
           (code < 9 →
             let removed : State :=
               { s.took p with
                 alerts := pre ++ post
                 ports := addNoticeAll (.alertCleared c named a.count (some p)) (s.taking p) }
             let others := ((pre ++ post).filter (fun a => a.code ≠ .boardFull)).length
             let settled : State :=
               match (pre ++ post).find? (fun a => a.code = .boardFull && a.reel = none) with
               | some full =>
                 if others ≤ 19 then
                   sweepConditions
                     { removed with
                       alerts := (pre ++ post).filter (fun a => !(a.code = .boardFull && a.reel = none))
                       ports := addNoticeAll (.alertCleared .boardFull none full.count none) removed.ports }
                 else removed
               | none => removed
             (∀ b ∈ s.alerts, b.code = .boardFull → b.reel = none) →
             exec (.clearAlert p code reel) s = .next
               (settled.replied p .ok (u8 code ++ u32 reel ++ u8 a.count)))))) ∧
     (s.phase = .running →
       exec .suiteMinute s = .next
         { s with suiteMinute := if s.suiteMinute < 65535 then s.suiteMinute + 1 else 0, suiteSecond := 0 })) ∧
  (∀ s : State, s.reelTableOk → (∀ a ∈ s.alerts, a.code ≠ .boardFull) → s.alerts.length ≤ 23 →
     let wanted : List (AlertCode × Option Nat) :=
       (s.reels.filter (fun e => e.2.inFault)).map (fun e => (.moveFault, some e.2.id)) ++
         (s.reels.filter (fun e => e.2.overexposed)).map (fun e => (.exposureLimit, some e.2.id)) ++
         (if 4096 - s.allDefects.length < 64 ∨ ∃ e ∈ s.reels, 1024 ≤ e.2.defects.length then
           [(.defectPoolFull, none)] else []) ++
         (if 2048 - s.allScenes.length < 32 then [(.scenePoolFull, none)] else [])
     let absent := wanted.filter (fun x => s.alerts.all (fun a => !(a.code = x.1 && a.reel = x.2)))
     let room := 23 - s.alerts.length
     let lost := absent.length - room
     let new (x : AlertCode × Option Nat) : Alert :=
       { code := x.1, reel := x.2, place := none, minute := s.suiteMinute, count := 1 }
     let added : List Alert :=
       (absent.take room).map new ++
         (if lost = 0 then [] else [{ new (.boardFull, none) with count := min 255 lost }])
     sweepConditions s =
       { s with
         alerts := s.alerts ++ added
         ports := added.zipIdx.foldl (fun ports x =>
           addNoticeAll (.alertRaised x.1.code x.1.reel none (s.alerts.length + x.2 + 1)) ports) s.ports })

/-! ### Starting, stopping and the settings (chapter 10) -/

/-- POWER_ON after a store whose check value does not match and with no valid settings block leaves exactly the
values that the spec gives: every table and pool empty, the defaults, both units cleared with their latches as
BREAK is found, the alerts in their order and every port open with its degraded START; the timestamp, the DIR
levels, the settings memory and the waiting commands are as they were (R1, R23, R26, R28, R44, R69, R91, R114,
R150, R160, R175, R176, R178, R179). Every start, by RESET negated or by POWER_ON, in the order of its steps. A
store whose check value does not match at power-on is emptied with the lost mark set, else every record stands.
A block whose check matches is loaded, clamped item by item, else the defaults. A pending renumber is finished;
each reel keeps its record but for the turn of its custody, its queue, lapsed port, exposure seconds, counts,
and the claims of a GRANTED one; orders on their way are FAULTED and an inbound destination is given up; slots
in no zone are BLOCKED. The alerts come in their order, the ports open with START, and the lost mark is cleared
(R20, R23, R25, R44, R69, R91, R114, R128, R150, R160, R175, R176, R178, R179). A start that supply power or
RESET cuts off ends where it stands, at rest, with the records as its steps left them: unchanged before the
check and after a check that matches, emptied and marked lost after one that fails. It begins again from step 1
at POWER_ON, or from step 2 at RESET negated, and the work is done once: it leaves the part that the start never
cut leaves, but for a lapsed port that a cut in the reset of the records had told. RESET negated without supply
has no effect (R23, R128, R174, R175, R178). The kept timestamp and levels, the check value beside the records,
the stages at which a start may be cut, POWER_ON in any phase, no pool test before step 5, what the memory
answers and RESTING with preset 0 are the model's choices (logs 4, 5, 6, 7, 19, 21, 23 and 25). -/
def Obligations.StartUp : Prop :=
  (∀ (s : State) (b0 b1 : Bool), s.checkValue ≠ s.storeSum →
     exec (.powerOn ⟨.silent, none⟩ b0 b1) s = .next
       { State.reset with
         timestamp := s.timestamp
         units := ⟨.cleared b0, .cleared b1⟩
         lines := ⟨.quiet s.lines.t0.dirLine b0, .quiet s.lines.t1.dirLine b1⟩
         alerts := State.reset.alerts ++
           (match b0, b1 with
             | false, false => []
             | true, false => [⟨.filmBreak, none, some (.transport .t0), 0, 1⟩]
             | false, true => [⟨.filmBreak, none, some (.transport .t1), 0, 1⟩]
             | true, true => [⟨.filmBreak, none, none, 0, 2⟩])
         settingsMemory := if s.writeBack.isSome then none else s.settingsMemory
         pending := s.pending }) ∧
  (∀ (s found : State) (c : Instr) (mem : SettingsRead) (b0 b1 : Bool),
     (c = .reset ⟨mem, none⟩ b0 b1 ∧ s.phase ≠ .unpowered ∧ found = s) ∨
       (c = .powerOn ⟨mem, none⟩ b0 b1 ∧ s.checkValue = s.storeSum ∧ found = s) ∨
       (c = .powerOn ⟨mem, none⟩ b0 b1 ∧ s.checkValue ≠ s.storeSum ∧
         found =
           { s with reels := [], slots := [], rack := [], orders := [], pendingRenumber := none, lostMark := true }) →
     s.reelTableOk → s.ordersOk → s.slotsOk →
     ∃ t, exec c s = .next t ∧
       t.phase = .running ∧ t.timestamp = s.timestamp ∧ t.suiteMinute = 0 ∧ t.suiteSecond = 0 ∧
       t.units = ⟨.cleared b0, .cleared b1⟩ ∧
       t.lines = ⟨.quiet s.lines.t0.dirLine b0, .quiet s.lines.t1.dirLine b1⟩ ∧ t.passes = .const none ∧
       t.heldEdits = none ∧ t.renumberWork = none ∧ t.writeBack = none ∧ t.heldWrite = none ∧ t.lastWriteBack = none ∧
       t.pending = s.pending ∧ t.lostMark = false ∧ t.checkValue = t.storeSum ∧ t.pendingRenumber = none ∧
       (let held := match mem with
         | .newBlock b => some b
         | _ => if s.writeBack = none then s.settingsMemory else none
       let answer := match mem with
         | .silent => none
         | .asHeld => held
         | .newBlock b => some b
         | .misread b => some b
       t.settingsMemory = held ∧
         ((∀ b, answer = some b → b.check ≠ blockSum b.items) →
           t.settings = defaultSettings ∧ t.loadOutcome = .defaulted ∧ t.clampedAtLoad = 0) ∧
         (∀ b, answer = some b → b.check = blockSum b.items →
           let cycle (v : Nat) : Nat := if v = 0 then 0 else max 2000 (min 100000 v)
           let g := b.items
           t.loadOutcome = .valid ∧
             t.settings =
               { zones := t.settings.zones
                 cycle0 := cycle g.cycle0, cycle1 := cycle g.cycle1, shrinkLimit := max 50 (min 1000 g.shrinkLimit)
                 gentle := min 7 g.gentle, threading := max 30 (min 3600 g.threading)
                 firstWait := max 30 (min 720 g.firstWait), reissue := min 7 g.reissue } ∧
             (∀ k, tableGet t.settings.zones k =
               if 8 ≤ k then none
               else (tableGet g.zones k).map (fun z =>
                 ⟨min 1023 z.first, min 1023 z.last, min 240 z.preset, min 2880 z.limit⟩)) ∧
             (∀ k, k < 8 → (t.clampedAtLoad.testBit k ↔ tableGet t.settings.zones k ≠ tableGet g.zones k)) ∧
             (∀ k, k < 7 → (t.clampedAtLoad.testBit (8 + k) ↔
               [t.settings.cycle0, t.settings.cycle1, t.settings.shrinkLimit, t.settings.gentle, t.settings.threading,
                 t.settings.firstWait, t.settings.reissue][k]? ≠
               [g.cycle0, g.cycle1, g.shrinkLimit, g.gentle, g.threading, g.firstWait, g.reissue][k]?)) ∧
             t.clampedAtLoad < 2 ^ 15)) ∧
       t.rack = found.rack ∧
       (∀ k, tableGet t.orders k = (tableGet found.orders k).map (fun o =>
         if ∃ e ∈ found.reels, (e.2.custody = .outbound ∨ e.2.custody = .inbound) ∧ e.2.rack = some k then
           { o with state := .faulted }
         else o)) ∧
       (let toSlot (r : Reel) : Option Nat :=
         if r.custody = .inbound then (r.rack.bind (tableGet found.orders)).map (·.dest) else none
       (∀ n, n < 1024 →
         let zone := zoneOf t.settings n
         let marked := if found.lostMark ∧ zone = none then .blocked else found.slotAt n
         let left := match found.reels.find? (fun e => toSlot e.2 = some n) with
           | some e => if e.2.home = some n then .away e.2.id else if zone = none then .blocked else .free
           | none => marked
         t.slotAt n = if zone = none ∧ (left = .free ∨ left = .unknown) then .blocked else left) ∧
       t.reels = found.reels.map (fun e =>
         let r := e.2
         let numbered : Reel := match found.pendingRenumber with
           | none => r
           | some w =>
             if r.id = w.reel then
               let walked : Reel :=
                 { r with
                   defects := walkDefects w r.defects, scenes := walkScenes w r.scenes, renumbering := false
                   sceneCount := r.sceneCount - (r.scenes.length - (walkScenes w r.scenes).length) }
               if r.generation = w.target then walked
               else
                 { walked with
                   frameCount := r.frameCount.map (fun c => c - w.n), countConfirmed := false, gradedDone := false
                   sceneCount := (walkScenes w r.scenes).length, gradeLocked := false, generation := w.target }
             else r
         let moved : Reel := match toSlot r with
           | some n => numbered.leaving n
           | none => numbered
         let ds := match r.custody with
           | .granted p _ =>
           numbered.defects.map (fun d => if d.state = .claimed p then { d with state := .opened } else d)
           | _ => numbered.defects
         (e.1,
           { moved with
             custody := match r.custody with
               | .outbound => .moveFault .outbound
               | .inbound => .moveFault .inbound
               | .resting _ => .resting (60 * zonePreset t.settings r.zone)
               | .granted _ _ => .ready
               | c => c
             waiters := []
             lapsed := match r.custody with
               | .granted p _ => some p
               | _ => none
             exposureSeconds := 0, defects := ds, openCount := countOpen ds, blockingCount := countBlocking ds }))) ∧
       (let defaulted := decide (t.loadOutcome = .defaulted)
       let raises : List (AlertCode × Option Nat × Option AlertPlace) :=
         (if found.lostMark then [(.retainedLost, none, none)] else []) ++
           (if defaulted then [(.settingsDefaulted, none, none)] else []) ++
           (if b0 then [(.filmBreak, none, some (.transport .t0))] else []) ++
           (if b1 then [(.filmBreak, none, some (.transport .t1))] else []) ++
           (t.reels.filter (fun e => e.2.inFault)).map (fun e => (.moveFault, some e.2.id, none)) ++
           (t.reels.filter (fun e => e.2.overexposed)).map (fun e => (.exposureLimit, some e.2.id, none)) ++
           (if t.defectPoolFull then [(.defectPoolFull, none, none)] else []) ++
           (if t.scenePoolFull then [(.scenePoolFull, none, none)] else [])
       t.alerts = (raises.foldl (fun u x => raiseAlert x.1 x.2.1 x.2.2 u) { State.reset with alerts := [] }).alerts ∧
         ∀ p, t.port p =
           { status := .idle, marker := none, flags := ⟨false, false, false⟩, dataOut := []
             notices :=
               [.start (if found.lostMark ∨ defaulted then .degraded found.lostMark defaulted else .ok)] })) ∧
  (∀ (s : State) (mem : SettingsRead) (b0 b1 : Bool),
     let begins (powers : Bool) (cut : Option StartCut) : Instr :=
       if powers then .powerOn ⟨mem, cut⟩ b0 b1 else .reset ⟨mem, cut⟩ b0 b1
     (s.phase = .unpowered → ∀ cut, exec (.reset ⟨mem, cut⟩ b0 b1) s = .next s) ∧
     (∀ (stage : StartStage) (end_ : StartEnd) (powers again : Bool), (powers = false → s.phase ≠ .unpowered) →
       ∃ t, exec (begins powers (some ⟨stage, end_⟩)) s = .next t ∧ t.atRest ∧ t.pending = s.pending ∧
         (∀ u, t.stopLine u = true ∧ t.spdLine u = 0) ∧
         (end_ = .resetAsserted → t.phase = .resetHeld) ∧ (∀ store, end_ = .powerLoss store → t.phase = .unpowered) ∧
         (∀ contents check, end_ = .powerLoss (.changed contents check) →
           t.reels = contents.reels ∧ t.slots = contents.slots ∧ t.rack = contents.rack ∧ t.orders = contents.orders ∧
             t.pendingRenumber = contents.pendingRenumber ∧ t.lostMark = contents.lostMark ∧ t.checkValue = check) ∧
         (end_ = .resetAsserted ∨ end_ = .powerLoss .kept →
           (stage = .begun ∨ stage = .checked ∧ (s.checkValue = s.storeSum ∨ powers = false) →
             t.reels = s.reels ∧ t.slots = s.slots ∧ t.rack = s.rack ∧ t.orders = s.orders ∧
               t.pendingRenumber = s.pendingRenumber ∧ t.lostMark = s.lostMark ∧ t.checkValue = s.checkValue) ∧
           (stage = .checked → s.checkValue ≠ s.storeSum → powers = true →
             t.reels = [] ∧ t.slots = [] ∧ t.rack = [] ∧ t.orders = [] ∧ t.pendingRenumber = none ∧ t.lostMark = true ∧
               t.checkValue = t.storeSum) ∧
           (end_ = .resetAsserted ∨ again = true → s.reelTableOk → s.ordersOk → s.slotsOk →
             (t.checkValue = t.storeSum ∨ again = powers →
               ∃ u v, exec (begins again none) t = .next u ∧ exec (begins powers none) s = .next v ∧
                 ((∀ n, stage ≠ .records n ∧ stage ≠ .slots n) → u = v) ∧
                 u.reels.map (fun e => (e.1, { e.2 with lapsed := none })) =
                   v.reels.map (fun e => (e.1, { e.2 with lapsed := none })) ∧
                 { u with reels := v.reels } = v) ∧
             (t.checkValue ≠ t.storeSum → again ≠ powers →
               exec (begins again none) t = exec (begins again none) { s with phase := .resetHeld })))))

/-- While RESET is asserted and without supply the part is at rest: ports closed, board empty, no pass, units
IDLE, no tag and no pulse, STOP asserted and SPD at 0, and a write-back cut short leaves no valid block. The
retained records and the check value stand, but for a loss of power that the store does not come through, which
leaves other contents beside a check value that need not match them. A part without supply ignores RESET
asserted (R46, R172, R174, R175, R177, R178). The check value beside the records, what a power loss leaves in
the store, RESET asserted without supply, the cut write-back, and what STOP and SPD show without supply are the
model's (logs 6, 19, 25 and 32). -/
def Obligations.StoppedAtRest : Prop :=
  ∀ (s : State),
    (s.phase ≠ .unpowered → ∃ t, exec .resetAsserted s = .next t ∧ t.phase = .resetHeld ∧ t.atRest ∧
      (∀ u, t.stopLine u = true ∧ t.spdLine u = 0) ∧ t.reels = s.reels ∧ t.slots = s.slots ∧ t.rack = s.rack ∧
      t.orders = s.orders ∧ t.pendingRenumber = s.pendingRenumber ∧ t.lostMark = s.lostMark ∧
      t.checkValue = s.checkValue ∧
      t.settingsMemory = (if s.writeBack = none then s.settingsMemory else none)) ∧
    (∀ store, ∃ t, exec (.powerLoss store) s = .next t ∧ t.phase = .unpowered ∧ t.atRest ∧
      (∀ u, t.stopLine u = true ∧ t.spdLine u = 0) ∧
      (store = .kept →
        t.reels = s.reels ∧ t.slots = s.slots ∧ t.rack = s.rack ∧ t.orders = s.orders ∧
          t.pendingRenumber = s.pendingRenumber ∧ t.lostMark = s.lostMark ∧ t.checkValue = s.checkValue) ∧
      (∀ contents check, store = .changed contents check →
        t.reels = contents.reels ∧ t.slots = contents.slots ∧ t.rack = contents.rack ∧ t.orders = contents.orders ∧
          t.pendingRenumber = contents.pendingRenumber ∧ t.lostMark = contents.lostMark ∧ t.checkValue = check) ∧
      t.settingsMemory = (if s.writeBack = none then s.settingsMemory else none)) ∧
    (s.phase = .unpowered → exec .resetAsserted s = .next s)

/-- WRITE_SETTING of a plain item, with no pass open and no write-back under way, clamps the value to the item's
range, applies it at once and begins the write-back with the port WORKING; a bad item, a presence byte that
names nothing, a zone above 7 and an open pass refuse it, in this order, and one that meets a write-back is held
(R176, R177). WRITE_SETTING of a zone record, present or absent, clamps and applies it: each FREE or UNKNOWN
slot that now lies in no zone is BLOCKED, and each reel of the zone is tested: at or above its limit for the
first time it is OVEREXPOSED, its alert is raised and its queue dropped. Then the write-back begins (R20, R24,
R25, R176, R177). The end of a write-back places its reply, the item as applied with WRITTEN or NOT_WRITTEN, at
the port that asked; the memory holds the image under a new check when it answered. A WRITE_SETTING that was
held is then taken, as if it came at that moment. With no write-back under way there is none to end (R177). The
bytes of the reply, the value taken modulo 2^32 and a presence byte above 1 refused, the order of the reels
tested and the moment of the checks are the model's readings and choices (logs 12, 13, 25 and 28; log 18 for the
notices of one test). -/
def Obligations.SettingWritten : Prop :=
  (∀ (s : State) (p : Port) (item zone value : Nat), s.rdy p = true → p = .p4 ∨ p = .p5 →
     let q : SettingRequest := { port := p, item := item, zone := zone, value := value }
     let v := value % 2 ^ 32
     let cycle := if v = 0 then 0 else max 2000 (min 100000 v)
     (s.writeBack ≠ none → exec (.writeSetting p item zone value) s = .next { s.took p with heldWrite := some q }) ∧
     (s.writeBack = none →
       (7 < item ∨ item = 0 ∧ 1 < value % 256 →
         exec (.writeSetting p item zone value) s = .next (s.replying p .badRequest [])) ∧
       (item = 0 → value % 256 ≤ 1 → 7 < zone →
         exec (.writeSetting p item zone value) s = .next (s.replying p .outOfRange [])) ∧
       (item ≤ 7 → (item = 0 → value % 256 ≤ 1 ∧ zone ≤ 7) → s.passes.t0 ≠ none ∨ s.passes.t1 ≠ none →
         exec (.writeSetting p item zone value) s = .next (s.replying p .passActive [])) ∧
       (s.passes.t0 = none → s.passes.t1 = none →
         ∀ image clamped,
           (item = 1 ∧ image = { s.settings with cycle0 := cycle } ∧ clamped = decide (cycle ≠ v)) ∨
           (item = 2 ∧ image = { s.settings with cycle1 := cycle } ∧ clamped = decide (cycle ≠ v)) ∨
           (item = 3 ∧ image = { s.settings with shrinkLimit := max 50 (min 1000 v) } ∧
             clamped = decide (v < 50 ∨ 1000 < v)) ∨
           (item = 4 ∧ image = { s.settings with gentle := min 7 v } ∧ clamped = decide (7 < v)) ∨
           (item = 5 ∧ image = { s.settings with threading := max 30 (min 3600 v) } ∧
             clamped = decide (v < 30 ∨ 3600 < v)) ∨
           (item = 6 ∧ image = { s.settings with firstWait := max 30 (min 720 v) } ∧
             clamped = decide (v < 30 ∨ 720 < v)) ∨
           (item = 7 ∧ image = { s.settings with reissue := min 7 v } ∧ clamped = decide (7 < v)) →
           exec (.writeSetting p item zone value) s = .next
             { s.took p with
               settings := image
               writeBack := some { request := q, clamped := clamped, image := image } }))) ∧
  (∀ (s : State) (p : Port) (zone value : Nat), s.rdy p = true → p = .p4 ∨ p = .p5 → s.writeBack = none →
     s.passes.t0 = none → s.passes.t1 = none → zone ≤ 7 → value % 256 ≤ 1 →
     tableOrdered s.reels → tableWithin 1024 s.slots →
     let first := value / 2 ^ 8 % 2 ^ 16
     let last := value / 2 ^ 24 % 2 ^ 16
     let preset := value / 2 ^ 40 % 2 ^ 8
     let limit := value / 2 ^ 48 % 2 ^ 16
     let record : Zone := ⟨min 1023 first, min 1023 last, min 240 preset, min 2880 limit⟩
     let present := value % 256 = 1
     let image : Settings :=
       { s.settings with
         zones := if present then tablePut s.settings.zones zone record else tableErase s.settings.zones zone }
     let exposed (r : Reel) : Prop :=
       r.zone = zone ∧ r.overexposed = false ∧ present ∧ record.first ≤ record.last ∧ record.limit ≠ 0 ∧
         record.limit ≤ r.exposure
     ∃ (t told : State),
       exec (.writeSetting p 0 zone value) s = .next t ∧
       (∀ n, n < 1024 → t.slotAt n =
         if zoneOf image n = none ∧ (s.slotAt n = .free ∨ s.slotAt n = .unknown) then .blocked else s.slotAt n) ∧
       tableWithin 1024 t.slots ∧ (∀ x ∈ t.slots, x ∈ s.slots ∨ x.2 = .blocked) ∧
       (∀ hit : List (Nat × Reel), hit.Sublist s.reels → (∀ e ∈ s.reels, e ∈ hit ↔ exposed e.2) →
         told = hit.foldl (fun u e =>
           let v := raiseAlert .exposureLimit (some e.2.id) none u
           { v with
             ports := e.2.waiters.foldl
               (fun ports w => addNotice w (.queueDropped e.2.id .exposure) ports) v.ports }) (s.took p) ∧
         t.reels = s.reels.map (fun e =>
           if e ∈ hit then (e.1, { e.2 with overexposed := true, waiters := [] }) else e)) ∧
       { t with reels := s.reels, slots := s.slots } =
         { s.took p with
           settings := image
           alerts := told.alerts
           ports := told.ports
           writeBack := some
             { request := { port := p, item := 0, zone := zone, value := value }
               clamped := decide (present ∧ (1023 < first ∨ 1023 < last ∨ 240 < preset ∨ 2880 < limit))
               image := image } }) ∧
  (∀ (s : State) (answered : Bool), s.phase = .running →
     (s.writeBack = none → exec (.writeBackDone answered) s = .next s) ∧
     (∀ w, s.writeBack = some w → w.request.item ≤ 7 →
       let number (v : Nat) : Bytes := u32 v ++ [0, 0, 0, 0]
       let value : Bytes := match w.request.item with
         | 0 => match tableGet w.image.zones w.request.zone with
           | some z => u8 1 ++ u16 z.first ++ u16 z.last ++ u8 z.preset ++ u16 z.limit
           | none => [0, 255, 255, 255, 255, 0, 0, 0]
         | 1 => number w.image.cycle0
         | 2 => number w.image.cycle1
         | 3 => number w.image.shrinkLimit
         | 4 => number w.image.gentle
         | 5 => number w.image.threading
         | 6 => number w.image.firstWait
         | _ => number w.image.reissue
       let ended : State :=
         ({ s with
             settingsMemory := if answered then some ⟨w.image, blockSum w.image⟩ else s.settingsMemory
             lastWriteBack := some answered
             writeBack := none
             heldWrite := none } : State).replied w.request.port (if w.clamped then .clamped else .ok)
           (u8 w.request.item ++ u8 w.request.zone ++ value ++ [if answered then 0 else 1])
       (s.heldWrite = none → exec (.writeBackDone answered) s = .next ended) ∧
       (∀ h, s.heldWrite = some h → h.port = .p4 ∨ h.port = .p5 → h.port ≠ w.request.port →
         (s.port h.port).status = .working → (s.port h.port).dataOut = [] →
         exec (.writeBackDone answered) s =
           exec (.writeSetting h.port h.item h.zone h.value)
             { ended with ports := ended.ports.set h.port { s.port h.port with status := .idle } })))

/-! ### Reads -/

/-- Every read with arguments in range is answered OK with a body of the length that its layout gives, and
changes no state but the port's (R21, R22, R43, R90, R111, R148, R149, R159, R177, R182). A read with an
argument out of range is answered OUT_OF_RANGE, and one whose area or transport byte names none BAD_REQUEST; it
changes nothing but the port (R22, R43, R90, R111, R148, R149). What READ_REEL shows of a reel in every custody
state, in 50 bytes at the places of the record layout: index, ID, gauge, zone, the slots, the rack position, the
custody state with its fault direction and its holder, the wait queue, the lapsed port, the times left, the
exposure, the flags, the frame count and the pitch figures when present, the counts, the trim and the numbers
(R21, R180, R182). What the other reads show: the items of each list from the position asked, with what a
further read begins at, the frame that PREVIEW_LIGHTS computes, the board in its order, the settings in the
order of their codes with the load and write-back outcomes, and a pass with its registration unit (R22, R43,
R90, R111, R148, R149, R159, R177, R180, R182). The widths and absent codings that no table gives, and the area
byte of READ_SLOTS tested before its range, are the model's reading (logs 9, 11, 12 and 13); that a flag with a
byte of its own is 1 when set and 0 when clear is its choice (log 33). -/
def Obligations.Reads : Prop :=
  (∀ (s : State) (p : Port) (reel i a n : Nat) (r : Reel), s.rdy p = true →
     let reads (c : Instr) (size : Nat) : Prop :=
       ∃ body : Bytes, body.length = size ∧ exec c s = .next (s.replying p .ok body)
     (s.names reel i r → r.waiters.length ≤ 3 → reads (.readReel p reel) 50) ∧
     (a < 48 → 1 ≤ n → n ≤ 48 →
       reads (.listReels p a n) (1 + 9 * min n ((s.reels.filter (fun e => a ≤ e.1)).length))) ∧
     (a < 1024 → 1 ≤ n → n ≤ 1024 → reads (.readSlots p 0 a n) (2 + 8 * min (min n 63) (1024 - a))) ∧
     reads (.readSlots p 1 a n) 240 ∧
     (a < 2 → reads (.readPass p a) 53) ∧
     (s.names reel i r → r.renumbering = false → a < 1024 → 1 ≤ n → n ≤ 1024 →
       reads (.readDefects p reel a n) (8 + 19 * min (min n 26) (r.defects.length - a))) ∧
     (s.names reel i r → r.renumbering = false → a < 512 → 1 ≤ n → n ≤ 512 →
       reads (.readScenes p reel a n) (9 + 6 * min (min n 83) (r.scenes.length - a))) ∧
     (s.names reel i r → r.renumbering = false → a ≤ 65534 → reads (.previewLights p reel a) 15) ∧
     reads (.readAlerts p) (3 + 10 * s.alerts.length) ∧
     reads (.readSettings p) 124) ∧
  (∀ (s : State) (p : Port) (reel i a n : Nat) (r : Reel), s.rdy p = true →
     let refused (c : Instr) (code : ResultCode) : Prop := exec c s = .next (s.replying p code [])
     (47 < a ∨ n = 0 ∨ 48 < n → refused (.listReels p a n) .outOfRange) ∧
     (∀ area, 1 < area → refused (.readSlots p area a n) .badRequest) ∧
     (1023 < a ∨ n = 0 ∨ 1024 < n → refused (.readSlots p 0 a n) .outOfRange) ∧
     (1 < a → refused (.readPass p a) .badRequest) ∧
     (s.names reel i r → r.renumbering = false →
       (1023 < a ∨ n = 0 ∨ 1024 < n → refused (.readDefects p reel a n) .outOfRange) ∧
       (511 < a ∨ n = 0 ∨ 512 < n → refused (.readScenes p reel a n) .outOfRange) ∧
       (65534 < a → refused (.previewLights p reel a) .outOfRange))) ∧
  (∀ (s : State) (p : Port) (reel i : Nat) (r : Reel), s.rdy p = true → s.names reel i r →
     let port (q : Option Port) : Bytes := u8 ((q.map portCode).getD 255)
     let custody : Bytes := match r.custody with
       | .shelved => [0, 255, 255]
       | .outbound => [1, 255, 255]
       | .resting _ => [2, 255, 255]
       | .ready => [3, 255, 255]
       | .granted q _ => [4, 255] ++ port (some q)
       | .held q => [5, 255] ++ port (some q)
       | .inbound => [6, 255, 255]
       | .moveFault .outbound => [7, 0, 255]
       | .moveFault .inbound => [7, 1, 255]
     let minutes := match r.custody with
       | .resting w => (w + 59) / 60
       | _ => 0
     let seconds := match r.custody with
       | .granted _ w => w
       | _ => 0
     exec (.readReel p reel) s = .next (s.replying p .ok
       (u8 i ++ u32 reel ++ u8 (match r.gauge with | .g35x4 => 0 | .g35x3 => 1 | .g16x1 => 2) ++ u8 r.zone ++
         u16 (r.home.getD 65535) ++ u16 (r.current.getD 65535) ++ u16 (r.previous.getD 65535) ++
         u8 (r.rack.getD 255) ++ custody ++ port r.waiters[0]? ++ port r.waiters[1]? ++ port r.waiters[2]? ++
         port r.lapsed ++ u8 minutes ++ u16 seconds ++ u16 r.exposure ++ u8 r.exposureSeconds ++
         u8 (r.overexposed.toNat + 2 * r.countConfirmed.toNat + 4 * r.shrunk.toNat + 8 * r.gradeLocked.toNat +
           16 * r.gradedDone.toNat + 32 * r.renumbering.toNat + 64 * r.generation.toNat) ++
         u8 (r.frameCount.isSome.toNat + 2 * r.pitch.isSome.toNat) ++ u16 (r.frameCount.getD 0) ++
         (match r.pitch with
           | some g => u32 g.estimate ++ leInt 2 g.shrinkage
           | none => ([0, 0, 0, 0, 0, 0] : Bytes)) ++
         u16 r.openCount ++ u16 r.blockingCount ++ u16 r.sceneCount ++ leInt 1 r.trim.r ++ leInt 1 r.trim.g ++
         leInt 1 r.trim.b ++ u16 r.passNumber ++ u8 r.inspectCount ++ u8 r.lastOrder))) ∧
  (∀ (s : State) (p : Port) (reel i a n : Nat) (r : Reel), s.rdy p = true →
     let shows (c : Instr) (body : Bytes) : Prop := exec c s = .next (s.replying p .ok body)
     let port (q : Option Port) : Bytes := u8 ((q.map portCode).getD 255)
     let next (length fit : Nat) : Nat := if length ≤ a then length else min length (a + min n fit)
     (a < 48 → 1 ≤ n → n ≤ 48 →
       let es := (s.reels.filter (fun e => a ≤ e.1)).take n
       shows (.listReels p a n)
         (u8 (if es.length < n then 48 else ((es.getLast?).map (fun e => e.1 + 1)).getD 48) ++
           es.flatMap (fun e =>
             u8 e.1 ++ u32 e.2.id ++ u8 e.2.custody.code ++ port e.2.custody.holder ++ u8 e.2.waiters.length ++
               u8 (e.2.overexposed.toNat + 2 * e.2.shrunk.toNat + 4 * e.2.renumbering.toNat)))) ∧
     (a < 1024 → 1 ≤ n → n ≤ 1024 →
       let m := min (min n 63) (1024 - a)
       shows (.readSlots p 0 a n)
         (u16 (a + m) ++ (List.range m).flatMap (fun j =>
           u16 (a + j) ++ u8 (s.slotAt (a + j)).code ++ u32 ((s.slotAt (a + j)).occupant.getD 0) ++
             u8 ((zoneOf s.settings (a + j)).getD 255)))) ∧
     shows (.readSlots p 1 a n)
       ((List.range 16).flatMap (fun k =>
         u8 k ++ u32 ((tableGet s.rack k).getD 0) ++
           (match tableGet s.orders k with
             | none => ([0, 255, 255, 255, 255, 255, 0, 255, 0, 0] : Bytes)
             | some o =>
               u8 o.number ++ u8 o.dir.code ++ u16 o.source ++ u16 o.dest ++ u8 o.attempt ++
                 (match o.state with
                   | .waiting w => [0] ++ u16 w
                   | .faulted => ([1, 0, 0] : Bytes))))) ∧
     (s.names reel i r → r.renumbering = false → a < 1024 → 1 ≤ n → n ≤ 1024 →
       shows (.readDefects p reel a n)
         (u16 r.defects.length ++ u16 r.openCount ++ u16 r.blockingCount ++ u16 (next r.defects.length 26) ++
           ((r.defects.drop a).take (min n 26)).flatMap (fun d =>
             u16 d.number ++ u32 reel ++ u16 d.first ++ u8 d.span ++ u8 d.kind.code ++ u8 d.state.code ++
               u8 ((if d.severity = .blocking then 1 else 0) + 2 * d.generation.toNat + 4 * d.note.isSome.toNat) ++
               u8 d.origin.code ++ port d.state.claimant ++ u8 d.attempts ++ u16 d.pass ++ u16 (d.note.getD 0)))) ∧
     (s.names reel i r → r.renumbering = false → a < 512 → 1 ≤ n → n ≤ 512 →
       shows (.readScenes p reel a n)
         (u16 r.sceneCount ++ leInt 1 r.trim.r ++ leInt 1 r.trim.g ++ leInt 1 r.trim.b ++
           u8 (r.gradeLocked.toNat + 2 * r.gradedDone.toNat) ++ u8 (s.heldFor reel).length ++
           u16 (next r.scenes.length 83) ++
           ((r.scenes.drop a).take (min n 83)).flatMap (fun c =>
             u16 c.start ++ u8 c.lights.r ++ u8 c.lights.g ++ u8 c.lights.b ++ u8 c.fade))) ∧
     (s.names reel i r → r.renumbering = false → a ≤ 65534 →
       let l := lightsAt a r.scenes r.trim
       let g := frameGrade a r.scenes r.trim
       shows (.previewLights p reel a)
         (u8 l.r ++ u8 l.g ++ u8 l.b ++ u16 (gainOf l.r) ++ u16 (gainOf l.g) ++ u16 (gainOf l.b) ++
           u8 g.sceneStart.toNat ++ u8 g.inFade.toNat ++ u16 (g.scene.getD 65535) ++ u8 g.fade ++
           u8 (r.defects.any (fun d => d.counted && decide (d.first ≤ a ∧ a < d.first + d.span))).toNat)) ∧
     shows (.readAlerts p)
       (u16 s.suiteMinute ++ u8 s.alerts.length ++ s.alerts.zipIdx.flatMap (fun x =>
         u8 (x.2 + 1) ++ u8 (x.1.code.code + if x.1.code.isCondition then 128 else 0) ++ u32 (x.1.reel.getD 0) ++
           (match x.1.place with
             | none => ([255] : Bytes)
             | some (.transport t) => u8 (if t = .t0 then 0 else 1)
             | some (.port q) => u8 (portCode q + 2)) ++ u16 x.1.minute ++ u8 x.1.count)) ∧
     shows (.readSettings p)
       ((List.range 8).flatMap (fun k =>
           match tableGet s.settings.zones k with
           | some z => u8 1 ++ u16 z.first ++ u16 z.last ++ u8 z.preset ++ u16 z.limit
           | none => ([0, 255, 255, 255, 255, 0, 0, 0] : Bytes)) ++
         [s.settings.cycle0, s.settings.cycle1, s.settings.shrinkLimit, s.settings.gentle, s.settings.threading,
           s.settings.firstWait, s.settings.reissue].flatMap (fun v => u32 v ++ [0, 0, 0, 0]) ++
         (match s.loadOutcome with
           | .valid => ([0] : Bytes)
           | .defaulted => [1]) ++ u16 s.clampedAtLoad ++
         (match s.lastWriteBack with
           | none => ([255] : Bytes)
           | some true => [0]
           | some false => [1])) ∧
     (∀ t, a = (if t = .t0 then 0 else 1) →
       let u := s.unit t
       shows (.readPass p a)
         ((match s.pass t with
           | none =>
             ([0, 255, 0, 0, 0, 0, 0, 0, 255, 255, 255, 255, 255, 255, 255, 255] : Bytes) ++
               List.replicate 12 255 ++ [0, 0, 0, 0, 0]
           | some q =>
             u8 1 ++ u8 q.kind.code ++ u32 q.reel ++ u16 q.number ++ u16 q.f0 ++ u16 (q.endFrame.getD 65535) ++
               u8 q.state.code ++ u8 ((q.reason.map EndReason.code).getD 255) ++
               (match q.reason with
                 | some (.aborted c) => u8 c.code
                 | _ => ([255] : Bytes)) ++
               u8 ((q.tail.map Bool.toNat).getD 255) ++ u16 (q.highest.getD 65535) ++
               u16 (q.lastCaptured.getD 65535) ++ u16 q.captured ++ u16 q.missed ++ u16 q.spurious ++
               u16 q.defectsRaised ++ u8 q.misses ++ u8 q.exhausted.toNat ++
               (match q.frozenTrim with
                 | some m => leInt 1 m.r ++ leInt 1 m.g ++ leInt 1 m.b
                 | none => ([0, 0, 0] : Bytes))) ++
           u8 u.state.code ++
           (match u.run with
             | some run =>
               u32 run.pitch ++ leInt 2 (shrinkageOf run.gauge run.pitch) ++
                 u32 ((run.track.map (·.count)).getD 0) ++ u32 run.accepted
             | none => (List.replicate 14 0 : Bytes)) ++
           u8 u.breakLatch.toNat ++ u8 u.abortHold.toNat ++ u8 u.setCode ++ u8 (s.speedCap t) ++
           u8 (min u.setCode (s.speedCap t)))))

/-! ### The queue and the ports -/

/-- The notice queues keep their limits over every step, from any state that has them (R167, R168). The alert
board keeps its form over every step, from any state that has it: 24 alerts at most and 23 without BOARD_FULL,
no code and reel twice, every raise count 1 to 255 (R151, R153, R154). BOARD_FULL stands on the board only as
its last alert, over every step (R151, R154, R156). -/
def Obligations.QueuesAndBoardKeepForm : Prop :=
  (∀ s t : State, s.queuesOk → step s = .next t → t.queuesOk) ∧
  (∀ s t : State, boardOk s.alerts → step s = .next t → boardOk t.alerts) ∧
  (∀ s t : State, boardFullLast s.alerts → step s = .next t → boardFullLast t.alerts)

/-! ### Invariants -/

/-- The reel table keeps its form over every step: 48 places at most, no reel ID twice, no reel with ID 0 (R1).
The open-defect and open-blocking counts of every reel that is not RENUMBERING stay those of its entries over
every step, and exactly the reel that the pending renumber names stays RENUMBERING (R102, R118, R121, R125). The
premise `brings` asks the form of records that a power loss brings into the store (log 6). -/
def Obligations.ReelRecordsKeepForm : Prop :=
  (∀ s t : State, s.reelTableOk → s.brings State.reelTableOk → step s = .next t → t.reelTableOk) ∧
  (∀ s t : State, s.reelTableOk → s.renumberOk → s.countsOk →
     s.brings (fun u => u.reelTableOk ∧ u.renumberOk ∧ u.countsOk) → step s = .next t → t.countsOk ∧ t.renumberOk)

/-- Over every step a port holds at most one reel and waits for none while it does, a queue is of at most three
ports and empty where the custody takes none, a claim is the holder's, the rack and the move orders name exactly
the reels that stand there or move, a reel that stands in a slot has one, and a RENUMBERING reel is HELD by a
bench (R2, R3, R7, R8, R11, R12, R20, R28, R31, R37, R105, R107, R117). Over every step a slot that names a reel
of the table is its current slot, in the state that its custody asks for, and no reel is named by two slots (R2,
R26, R27, R31, R35, R36, R37). The premise `brings` asks the form of records that a power loss brings into the
store (log 6). -/
def Obligations.CustodyKeepsForm : Prop :=
  (∀ s t : State, s.custodyForm → s.brings State.custodyForm → step s = .next t → t.custodyForm) ∧
  (∀ s t : State, s.custodyForm → s.phaseOk → s.slotsOk → s.brings State.slotsOk → step s = .next t → t.slotsOk)

/-- Over every step each scene list rises by start frame, within 512 scenes and below a confirmed frame count,
its count true and each scene in a place of its own; and outside a renumbering every entry and scene carries the
generation bit of its reel (R88, R119, R122, R127, R130, R139). Over every step the pass and the unit of each
transport agree: a pass is open on a reel that the paired port holds HELD and that is not RENUMBERING, its grade
locked while the pass is GRADED, and the unit is in the state that the pass asks for (R49, R50, R51, R70, R71,
R72, R88, R117, R143). The premise `brings` asks the form of records that a power loss brings into the store
(log 6). -/
def Obligations.ScenesAndPassesKeepForm : Prop :=
  (∀ s t : State, s.reelTableOk → s.renumberOk → s.generationsOk → s.brings State.generationsOk →
     step s = .next t →
     t.generationsOk ∧ (s.scenesOk → s.brings State.scenesOk → t.scenesOk)) ∧
  (∀ s t : State, s.custodyForm → s.phaseOk → s.passesOk → step s = .next t → t.passesOk)

/-- Every item of the settings image stays in its range over every step, whatever block the memory gives or
value a station writes (R176, R177). Over every step a running part has every port open, and a stopped part is
at rest with its ports closed (R172, R178). The set speed code of each unit stays in 0 to 7 over every step
(R63, R78). -/
def Obligations.SettingsAndPhaseKeepForm : Prop :=
  (∀ s t : State, settingsInRange s.settings → step s = .next t → settingsInRange t.settings) ∧
  (∀ s t : State, s.phaseOk → step s = .next t → t.phaseOk) ∧
  (∀ s t : State, s.speedOk → step s = .next t → t.speedOk)

/-- The part right after its reset has every form that the statements above say a step keeps, and its record
tables are empty. State.reset is the model's choice of a start (log 1). -/
def Obligations.ResetHasForms : Prop :=
  State.reset.queuesOk ∧ boardOk State.reset.alerts ∧ State.reset.reelTableOk ∧ State.reset.countsOk ∧
    State.reset.renumberOk ∧ settingsInRange State.reset.settings ∧ State.reset.phaseOk ∧ State.reset.speedOk ∧
    State.reset.pending = [] ∧ State.reset.reels = [] ∧ State.reset.slots = [] ∧
    boardFullLast State.reset.alerts ∧ State.reset.custodyForm ∧ State.reset.slotsOk ∧ State.reset.scenesOk ∧
    State.reset.generationsOk ∧ State.reset.passesOk

/-- THE MODEL'S CHOICE (log 2): with no command waiting a step is one second of the running part's clock. Of a
reel table with no reel and no order it moves the timestamp, the suite second and its minute, and lets TAG
drain; a stopped part counts nothing. The timers in that second: a resting and a threading timer, the exposure
seconds of a reel out of its slot and the wait of an order each count one second while none ends; the second in
which one ends is its event: the resting or threading timer's expiry, the exposure minute or the expiry of the
move wait (R10, R15, R19, R33). That a timer which ends does so as its expiry command does is log 3. -/
def Obligations.IdleSecond : Prop :=
  (∀ s : State, s.pending = [] →
     (s.phase ≠ .running → step s = .next s) ∧
     (s.phase = .running → s.reels = [] → s.orders = [] → s.suiteSecond ≤ 59 →
       step s = .next
         { s with
           timestamp := s.timestamp + 1000000
           suiteSecond := if s.suiteSecond = 59 then 0 else s.suiteSecond + 1
           suiteMinute := if s.suiteSecond = 59 then (s.suiteMinute + 1) % 65536 else s.suiteMinute
           lines := ⟨{ s.lines.t0 with tags := [] }, { s.lines.t1 with tags := [] }⟩ })) ∧
  (∀ s : State, s.pending = [] → s.phase = .running → s.suiteSecond < 59 →
     let exposes (c : Custody) : Bool := match c with
       | .shelved => false
       | .outbound => false
       | .moveFault .outbound => false
       | _ => true
     let drained (u : State) : State :=
       { u with lines := ⟨{ u.lines.t0 with tags := [] }, { u.lines.t1 with tags := [] }⟩ }
     let now : State := { s with timestamp := s.timestamp + 1000000, suiteSecond := s.suiteSecond + 1 }
     (tableOrdered s.reels → tableOrdered s.orders →
       (∀ e ∈ s.reels, (∀ w, e.2.custody = .resting w → 2 ≤ w) ∧ (∀ q w, e.2.custody = .granted q w → 2 ≤ w) ∧
         (exposes e.2.custody = true → e.2.exposureSeconds < 59)) →
       (∀ e ∈ s.orders, ∀ w, e.2.state = .waiting w → 2 ≤ w) →
       step s = .next
         (drained
           { now with
             reels := s.reels.map (fun e =>
               (e.1,
                 { e.2 with
                   exposureSeconds := if exposes e.2.custody then e.2.exposureSeconds + 1 else e.2.exposureSeconds
                   custody := match e.2.custody with
                     | .resting w => .resting (w - 1)
                     | .granted q w => .granted q (w - 1)
                     | c => c }))
             orders := s.orders.map (fun e =>
               (e.1,
                 { e.2 with
                   state := match e.2.state with
                     | .waiting w => .waiting (w - 1)
                     | .faulted => .faulted })) })) ∧
     (∀ i r, s.reels = [(i, r)] → s.orders = [] → r.id ≠ 0 →
       let aged : State := { now with reels := [(i, { r with exposureSeconds := r.exposureSeconds + 1 })] }
       (∀ w u, r.custody = .resting w → w ≤ 1 → r.exposureSeconds < 59 →
         exec (.restingTimerExpiry r.id) aged = .next u → step s = .next (drained u)) ∧
       (∀ q w u, r.custody = .granted q w → w ≤ 1 → r.exposureSeconds < 59 →
         exec (.threadingTimerExpiry r.id) aged = .next u → step s = .next (drained u)) ∧
       (∀ u, r.custody = .ready ∨ (∃ q, r.custody = .held q) → 59 ≤ r.exposureSeconds →
         exec (.exposureMinute r.id) now = .next u → step s = .next (drained u))) ∧
     (∀ i r k o w u, s.reels = [(i, r)] → s.orders = [(k, o)] → r.id ≠ 0 → o.reel = r.id → r.custody = .outbound →
       o.state = .waiting w → w ≤ 1 →
       exec (.moveWaitExpiry r.id) now = .next u → step s = .next (drained u)))

end Statements
end

