-- ==== Sys2Proof/Laws/State.lean ====
section
/-! SUPPORT. The small lemmas of the state: what each update of one record leaves in each field. -/

namespace Sys2Proof.Machine

variable (s : State)

/-! ### setPort -/

@[simp] theorem State.setPort_phase (p : Port) (q : PortState) : (s.setPort p q).phase = s.phase := rfl
@[simp] theorem State.setPort_timestamp (p : Port) (q : PortState) : (s.setPort p q).timestamp = s.timestamp := rfl
@[simp] theorem State.setPort_suiteMinute (p : Port) (q : PortState) : (s.setPort p q).suiteMinute = s.suiteMinute := rfl
@[simp] theorem State.setPort_suiteSecond (p : Port) (q : PortState) : (s.setPort p q).suiteSecond = s.suiteSecond := rfl
@[simp] theorem State.setPort_ports (p : Port) (q : PortState) : (s.setPort p q).ports = s.ports.set p q := rfl
@[simp] theorem State.setPort_reels (p : Port) (q : PortState) : (s.setPort p q).reels = s.reels := rfl
@[simp] theorem State.setPort_slots (p : Port) (q : PortState) : (s.setPort p q).slots = s.slots := rfl
@[simp] theorem State.setPort_rack (p : Port) (q : PortState) : (s.setPort p q).rack = s.rack := rfl
@[simp] theorem State.setPort_orders (p : Port) (q : PortState) : (s.setPort p q).orders = s.orders := rfl
@[simp] theorem State.setPort_pendingRenumber (p : Port) (q : PortState) : (s.setPort p q).pendingRenumber = s.pendingRenumber := rfl
@[simp] theorem State.setPort_renumberWork (p : Port) (q : PortState) : (s.setPort p q).renumberWork = s.renumberWork := rfl
@[simp] theorem State.setPort_units (p : Port) (q : PortState) : (s.setPort p q).units = s.units := rfl
@[simp] theorem State.setPort_lines (p : Port) (q : PortState) : (s.setPort p q).lines = s.lines := rfl
@[simp] theorem State.setPort_passes (p : Port) (q : PortState) : (s.setPort p q).passes = s.passes := rfl
@[simp] theorem State.setPort_heldEdits (p : Port) (q : PortState) : (s.setPort p q).heldEdits = s.heldEdits := rfl
@[simp] theorem State.setPort_alerts (p : Port) (q : PortState) : (s.setPort p q).alerts = s.alerts := rfl
@[simp] theorem State.setPort_lostMark (p : Port) (q : PortState) : (s.setPort p q).lostMark = s.lostMark := rfl
@[simp] theorem State.setPort_checkSkew (p : Port) (q : PortState) : (s.setPort p q).checkSkew = s.checkSkew := rfl
@[simp] theorem State.setPort_settings (p : Port) (q : PortState) : (s.setPort p q).settings = s.settings := rfl
@[simp] theorem State.setPort_loadOutcome (p : Port) (q : PortState) : (s.setPort p q).loadOutcome = s.loadOutcome := rfl
@[simp] theorem State.setPort_clampedAtLoad (p : Port) (q : PortState) : (s.setPort p q).clampedAtLoad = s.clampedAtLoad := rfl
@[simp] theorem State.setPort_lastWriteBack (p : Port) (q : PortState) : (s.setPort p q).lastWriteBack = s.lastWriteBack := rfl
@[simp] theorem State.setPort_settingsMemory (p : Port) (q : PortState) : (s.setPort p q).settingsMemory = s.settingsMemory := rfl
@[simp] theorem State.setPort_writeBack (p : Port) (q : PortState) : (s.setPort p q).writeBack = s.writeBack := rfl
@[simp] theorem State.setPort_heldWrite (p : Port) (q : PortState) : (s.setPort p q).heldWrite = s.heldWrite := rfl
@[simp] theorem State.setPort_pending (p : Port) (q : PortState) : (s.setPort p q).pending = s.pending := rfl

/-! ### setUnit -/

@[simp] theorem State.setUnit_phase (t : Transport) (u : RegUnit) : (s.setUnit t u).phase = s.phase := rfl
@[simp] theorem State.setUnit_timestamp (t : Transport) (u : RegUnit) : (s.setUnit t u).timestamp = s.timestamp := rfl
@[simp] theorem State.setUnit_suiteMinute (t : Transport) (u : RegUnit) : (s.setUnit t u).suiteMinute = s.suiteMinute := rfl
@[simp] theorem State.setUnit_suiteSecond (t : Transport) (u : RegUnit) : (s.setUnit t u).suiteSecond = s.suiteSecond := rfl
@[simp] theorem State.setUnit_ports (t : Transport) (u : RegUnit) : (s.setUnit t u).ports = s.ports := rfl
@[simp] theorem State.setUnit_reels (t : Transport) (u : RegUnit) : (s.setUnit t u).reels = s.reels := rfl
@[simp] theorem State.setUnit_slots (t : Transport) (u : RegUnit) : (s.setUnit t u).slots = s.slots := rfl
@[simp] theorem State.setUnit_rack (t : Transport) (u : RegUnit) : (s.setUnit t u).rack = s.rack := rfl
@[simp] theorem State.setUnit_orders (t : Transport) (u : RegUnit) : (s.setUnit t u).orders = s.orders := rfl
@[simp] theorem State.setUnit_pendingRenumber (t : Transport) (u : RegUnit) : (s.setUnit t u).pendingRenumber = s.pendingRenumber := rfl
@[simp] theorem State.setUnit_renumberWork (t : Transport) (u : RegUnit) : (s.setUnit t u).renumberWork = s.renumberWork := rfl
@[simp] theorem State.setUnit_units (t : Transport) (u : RegUnit) : (s.setUnit t u).units = s.units.set t u := rfl
@[simp] theorem State.setUnit_lines (t : Transport) (u : RegUnit) : (s.setUnit t u).lines = s.lines := rfl
@[simp] theorem State.setUnit_passes (t : Transport) (u : RegUnit) : (s.setUnit t u).passes = s.passes := rfl
@[simp] theorem State.setUnit_heldEdits (t : Transport) (u : RegUnit) : (s.setUnit t u).heldEdits = s.heldEdits := rfl
@[simp] theorem State.setUnit_alerts (t : Transport) (u : RegUnit) : (s.setUnit t u).alerts = s.alerts := rfl
@[simp] theorem State.setUnit_lostMark (t : Transport) (u : RegUnit) : (s.setUnit t u).lostMark = s.lostMark := rfl
@[simp] theorem State.setUnit_checkSkew (t : Transport) (u : RegUnit) : (s.setUnit t u).checkSkew = s.checkSkew := rfl
@[simp] theorem State.setUnit_settings (t : Transport) (u : RegUnit) : (s.setUnit t u).settings = s.settings := rfl
@[simp] theorem State.setUnit_loadOutcome (t : Transport) (u : RegUnit) : (s.setUnit t u).loadOutcome = s.loadOutcome := rfl
@[simp] theorem State.setUnit_clampedAtLoad (t : Transport) (u : RegUnit) : (s.setUnit t u).clampedAtLoad = s.clampedAtLoad := rfl
@[simp] theorem State.setUnit_lastWriteBack (t : Transport) (u : RegUnit) : (s.setUnit t u).lastWriteBack = s.lastWriteBack := rfl
@[simp] theorem State.setUnit_settingsMemory (t : Transport) (u : RegUnit) : (s.setUnit t u).settingsMemory = s.settingsMemory := rfl
@[simp] theorem State.setUnit_writeBack (t : Transport) (u : RegUnit) : (s.setUnit t u).writeBack = s.writeBack := rfl
@[simp] theorem State.setUnit_heldWrite (t : Transport) (u : RegUnit) : (s.setUnit t u).heldWrite = s.heldWrite := rfl
@[simp] theorem State.setUnit_pending (t : Transport) (u : RegUnit) : (s.setUnit t u).pending = s.pending := rfl

/-! ### setPass -/

@[simp] theorem State.setPass_phase (t : Transport) (p : Option Pass) : (s.setPass t p).phase = s.phase := rfl
@[simp] theorem State.setPass_timestamp (t : Transport) (p : Option Pass) : (s.setPass t p).timestamp = s.timestamp := rfl
@[simp] theorem State.setPass_suiteMinute (t : Transport) (p : Option Pass) : (s.setPass t p).suiteMinute = s.suiteMinute := rfl
@[simp] theorem State.setPass_suiteSecond (t : Transport) (p : Option Pass) : (s.setPass t p).suiteSecond = s.suiteSecond := rfl
@[simp] theorem State.setPass_ports (t : Transport) (p : Option Pass) : (s.setPass t p).ports = s.ports := rfl
@[simp] theorem State.setPass_reels (t : Transport) (p : Option Pass) : (s.setPass t p).reels = s.reels := rfl
@[simp] theorem State.setPass_slots (t : Transport) (p : Option Pass) : (s.setPass t p).slots = s.slots := rfl
@[simp] theorem State.setPass_rack (t : Transport) (p : Option Pass) : (s.setPass t p).rack = s.rack := rfl
@[simp] theorem State.setPass_orders (t : Transport) (p : Option Pass) : (s.setPass t p).orders = s.orders := rfl
@[simp] theorem State.setPass_pendingRenumber (t : Transport) (p : Option Pass) : (s.setPass t p).pendingRenumber = s.pendingRenumber := rfl
@[simp] theorem State.setPass_renumberWork (t : Transport) (p : Option Pass) : (s.setPass t p).renumberWork = s.renumberWork := rfl
@[simp] theorem State.setPass_units (t : Transport) (p : Option Pass) : (s.setPass t p).units = s.units := rfl
@[simp] theorem State.setPass_lines (t : Transport) (p : Option Pass) : (s.setPass t p).lines = s.lines := rfl
@[simp] theorem State.setPass_passes (t : Transport) (p : Option Pass) : (s.setPass t p).passes = s.passes.set t p := rfl
@[simp] theorem State.setPass_heldEdits (t : Transport) (p : Option Pass) : (s.setPass t p).heldEdits = s.heldEdits := rfl
@[simp] theorem State.setPass_alerts (t : Transport) (p : Option Pass) : (s.setPass t p).alerts = s.alerts := rfl
@[simp] theorem State.setPass_lostMark (t : Transport) (p : Option Pass) : (s.setPass t p).lostMark = s.lostMark := rfl
@[simp] theorem State.setPass_checkSkew (t : Transport) (p : Option Pass) : (s.setPass t p).checkSkew = s.checkSkew := rfl
@[simp] theorem State.setPass_settings (t : Transport) (p : Option Pass) : (s.setPass t p).settings = s.settings := rfl
@[simp] theorem State.setPass_loadOutcome (t : Transport) (p : Option Pass) : (s.setPass t p).loadOutcome = s.loadOutcome := rfl
@[simp] theorem State.setPass_clampedAtLoad (t : Transport) (p : Option Pass) : (s.setPass t p).clampedAtLoad = s.clampedAtLoad := rfl
@[simp] theorem State.setPass_lastWriteBack (t : Transport) (p : Option Pass) : (s.setPass t p).lastWriteBack = s.lastWriteBack := rfl
@[simp] theorem State.setPass_settingsMemory (t : Transport) (p : Option Pass) : (s.setPass t p).settingsMemory = s.settingsMemory := rfl
@[simp] theorem State.setPass_writeBack (t : Transport) (p : Option Pass) : (s.setPass t p).writeBack = s.writeBack := rfl
@[simp] theorem State.setPass_heldWrite (t : Transport) (p : Option Pass) : (s.setPass t p).heldWrite = s.heldWrite := rfl
@[simp] theorem State.setPass_pending (t : Transport) (p : Option Pass) : (s.setPass t p).pending = s.pending := rfl

/-! ### setLine -/

@[simp] theorem State.setLine_phase (t : Transport) (l : Lines) : (s.setLine t l).phase = s.phase := rfl
@[simp] theorem State.setLine_timestamp (t : Transport) (l : Lines) : (s.setLine t l).timestamp = s.timestamp := rfl
@[simp] theorem State.setLine_suiteMinute (t : Transport) (l : Lines) : (s.setLine t l).suiteMinute = s.suiteMinute := rfl
@[simp] theorem State.setLine_suiteSecond (t : Transport) (l : Lines) : (s.setLine t l).suiteSecond = s.suiteSecond := rfl
@[simp] theorem State.setLine_ports (t : Transport) (l : Lines) : (s.setLine t l).ports = s.ports := rfl
@[simp] theorem State.setLine_reels (t : Transport) (l : Lines) : (s.setLine t l).reels = s.reels := rfl
@[simp] theorem State.setLine_slots (t : Transport) (l : Lines) : (s.setLine t l).slots = s.slots := rfl
@[simp] theorem State.setLine_rack (t : Transport) (l : Lines) : (s.setLine t l).rack = s.rack := rfl
@[simp] theorem State.setLine_orders (t : Transport) (l : Lines) : (s.setLine t l).orders = s.orders := rfl
@[simp] theorem State.setLine_pendingRenumber (t : Transport) (l : Lines) : (s.setLine t l).pendingRenumber = s.pendingRenumber := rfl
@[simp] theorem State.setLine_renumberWork (t : Transport) (l : Lines) : (s.setLine t l).renumberWork = s.renumberWork := rfl
@[simp] theorem State.setLine_units (t : Transport) (l : Lines) : (s.setLine t l).units = s.units := rfl
@[simp] theorem State.setLine_lines (t : Transport) (l : Lines) : (s.setLine t l).lines = s.lines.set t l := rfl
@[simp] theorem State.setLine_passes (t : Transport) (l : Lines) : (s.setLine t l).passes = s.passes := rfl
@[simp] theorem State.setLine_heldEdits (t : Transport) (l : Lines) : (s.setLine t l).heldEdits = s.heldEdits := rfl
@[simp] theorem State.setLine_alerts (t : Transport) (l : Lines) : (s.setLine t l).alerts = s.alerts := rfl
@[simp] theorem State.setLine_lostMark (t : Transport) (l : Lines) : (s.setLine t l).lostMark = s.lostMark := rfl
@[simp] theorem State.setLine_checkSkew (t : Transport) (l : Lines) : (s.setLine t l).checkSkew = s.checkSkew := rfl
@[simp] theorem State.setLine_settings (t : Transport) (l : Lines) : (s.setLine t l).settings = s.settings := rfl
@[simp] theorem State.setLine_loadOutcome (t : Transport) (l : Lines) : (s.setLine t l).loadOutcome = s.loadOutcome := rfl
@[simp] theorem State.setLine_clampedAtLoad (t : Transport) (l : Lines) : (s.setLine t l).clampedAtLoad = s.clampedAtLoad := rfl
@[simp] theorem State.setLine_lastWriteBack (t : Transport) (l : Lines) : (s.setLine t l).lastWriteBack = s.lastWriteBack := rfl
@[simp] theorem State.setLine_settingsMemory (t : Transport) (l : Lines) : (s.setLine t l).settingsMemory = s.settingsMemory := rfl
@[simp] theorem State.setLine_writeBack (t : Transport) (l : Lines) : (s.setLine t l).writeBack = s.writeBack := rfl
@[simp] theorem State.setLine_heldWrite (t : Transport) (l : Lines) : (s.setLine t l).heldWrite = s.heldWrite := rfl
@[simp] theorem State.setLine_pending (t : Transport) (l : Lines) : (s.setLine t l).pending = s.pending := rfl

/-! ### putReel -/

@[simp] theorem State.putReel_phase (i : Nat) (r : Reel) : (s.putReel i r).phase = s.phase := rfl
@[simp] theorem State.putReel_timestamp (i : Nat) (r : Reel) : (s.putReel i r).timestamp = s.timestamp := rfl
@[simp] theorem State.putReel_suiteMinute (i : Nat) (r : Reel) : (s.putReel i r).suiteMinute = s.suiteMinute := rfl
@[simp] theorem State.putReel_suiteSecond (i : Nat) (r : Reel) : (s.putReel i r).suiteSecond = s.suiteSecond := rfl
@[simp] theorem State.putReel_ports (i : Nat) (r : Reel) : (s.putReel i r).ports = s.ports := rfl
@[simp] theorem State.putReel_reels (i : Nat) (r : Reel) : (s.putReel i r).reels = tablePut s.reels i r := rfl
@[simp] theorem State.putReel_slots (i : Nat) (r : Reel) : (s.putReel i r).slots = s.slots := rfl
@[simp] theorem State.putReel_rack (i : Nat) (r : Reel) : (s.putReel i r).rack = s.rack := rfl
@[simp] theorem State.putReel_orders (i : Nat) (r : Reel) : (s.putReel i r).orders = s.orders := rfl
@[simp] theorem State.putReel_pendingRenumber (i : Nat) (r : Reel) : (s.putReel i r).pendingRenumber = s.pendingRenumber := rfl
@[simp] theorem State.putReel_renumberWork (i : Nat) (r : Reel) : (s.putReel i r).renumberWork = s.renumberWork := rfl
@[simp] theorem State.putReel_units (i : Nat) (r : Reel) : (s.putReel i r).units = s.units := rfl
@[simp] theorem State.putReel_lines (i : Nat) (r : Reel) : (s.putReel i r).lines = s.lines := rfl
@[simp] theorem State.putReel_passes (i : Nat) (r : Reel) : (s.putReel i r).passes = s.passes := rfl
@[simp] theorem State.putReel_heldEdits (i : Nat) (r : Reel) : (s.putReel i r).heldEdits = s.heldEdits := rfl
@[simp] theorem State.putReel_alerts (i : Nat) (r : Reel) : (s.putReel i r).alerts = s.alerts := rfl
@[simp] theorem State.putReel_lostMark (i : Nat) (r : Reel) : (s.putReel i r).lostMark = s.lostMark := rfl
@[simp] theorem State.putReel_checkSkew (i : Nat) (r : Reel) : (s.putReel i r).checkSkew = s.checkSkew := rfl
@[simp] theorem State.putReel_settings (i : Nat) (r : Reel) : (s.putReel i r).settings = s.settings := rfl
@[simp] theorem State.putReel_loadOutcome (i : Nat) (r : Reel) : (s.putReel i r).loadOutcome = s.loadOutcome := rfl
@[simp] theorem State.putReel_clampedAtLoad (i : Nat) (r : Reel) : (s.putReel i r).clampedAtLoad = s.clampedAtLoad := rfl
@[simp] theorem State.putReel_lastWriteBack (i : Nat) (r : Reel) : (s.putReel i r).lastWriteBack = s.lastWriteBack := rfl
@[simp] theorem State.putReel_settingsMemory (i : Nat) (r : Reel) : (s.putReel i r).settingsMemory = s.settingsMemory := rfl
@[simp] theorem State.putReel_writeBack (i : Nat) (r : Reel) : (s.putReel i r).writeBack = s.writeBack := rfl
@[simp] theorem State.putReel_heldWrite (i : Nat) (r : Reel) : (s.putReel i r).heldWrite = s.heldWrite := rfl
@[simp] theorem State.putReel_pending (i : Nat) (r : Reel) : (s.putReel i r).pending = s.pending := rfl

/-! ### modReel -/

@[simp] theorem State.modReel_phase (i : Nat) (f : Reel → Reel) : (s.modReel i f).phase = s.phase := rfl
@[simp] theorem State.modReel_timestamp (i : Nat) (f : Reel → Reel) : (s.modReel i f).timestamp = s.timestamp := rfl
@[simp] theorem State.modReel_suiteMinute (i : Nat) (f : Reel → Reel) : (s.modReel i f).suiteMinute = s.suiteMinute := rfl
@[simp] theorem State.modReel_suiteSecond (i : Nat) (f : Reel → Reel) : (s.modReel i f).suiteSecond = s.suiteSecond := rfl
@[simp] theorem State.modReel_ports (i : Nat) (f : Reel → Reel) : (s.modReel i f).ports = s.ports := rfl
@[simp] theorem State.modReel_reels (i : Nat) (f : Reel → Reel) : (s.modReel i f).reels = tableModify s.reels i f := rfl
@[simp] theorem State.modReel_slots (i : Nat) (f : Reel → Reel) : (s.modReel i f).slots = s.slots := rfl
@[simp] theorem State.modReel_rack (i : Nat) (f : Reel → Reel) : (s.modReel i f).rack = s.rack := rfl
@[simp] theorem State.modReel_orders (i : Nat) (f : Reel → Reel) : (s.modReel i f).orders = s.orders := rfl
@[simp] theorem State.modReel_pendingRenumber (i : Nat) (f : Reel → Reel) : (s.modReel i f).pendingRenumber = s.pendingRenumber := rfl
@[simp] theorem State.modReel_renumberWork (i : Nat) (f : Reel → Reel) : (s.modReel i f).renumberWork = s.renumberWork := rfl
@[simp] theorem State.modReel_units (i : Nat) (f : Reel → Reel) : (s.modReel i f).units = s.units := rfl
@[simp] theorem State.modReel_lines (i : Nat) (f : Reel → Reel) : (s.modReel i f).lines = s.lines := rfl
@[simp] theorem State.modReel_passes (i : Nat) (f : Reel → Reel) : (s.modReel i f).passes = s.passes := rfl
@[simp] theorem State.modReel_heldEdits (i : Nat) (f : Reel → Reel) : (s.modReel i f).heldEdits = s.heldEdits := rfl
@[simp] theorem State.modReel_alerts (i : Nat) (f : Reel → Reel) : (s.modReel i f).alerts = s.alerts := rfl
@[simp] theorem State.modReel_lostMark (i : Nat) (f : Reel → Reel) : (s.modReel i f).lostMark = s.lostMark := rfl
@[simp] theorem State.modReel_checkSkew (i : Nat) (f : Reel → Reel) : (s.modReel i f).checkSkew = s.checkSkew := rfl
@[simp] theorem State.modReel_settings (i : Nat) (f : Reel → Reel) : (s.modReel i f).settings = s.settings := rfl
@[simp] theorem State.modReel_loadOutcome (i : Nat) (f : Reel → Reel) : (s.modReel i f).loadOutcome = s.loadOutcome := rfl
@[simp] theorem State.modReel_clampedAtLoad (i : Nat) (f : Reel → Reel) : (s.modReel i f).clampedAtLoad = s.clampedAtLoad := rfl
@[simp] theorem State.modReel_lastWriteBack (i : Nat) (f : Reel → Reel) : (s.modReel i f).lastWriteBack = s.lastWriteBack := rfl
@[simp] theorem State.modReel_settingsMemory (i : Nat) (f : Reel → Reel) : (s.modReel i f).settingsMemory = s.settingsMemory := rfl
@[simp] theorem State.modReel_writeBack (i : Nat) (f : Reel → Reel) : (s.modReel i f).writeBack = s.writeBack := rfl
@[simp] theorem State.modReel_heldWrite (i : Nat) (f : Reel → Reel) : (s.modReel i f).heldWrite = s.heldWrite := rfl
@[simp] theorem State.modReel_pending (i : Nat) (f : Reel → Reel) : (s.modReel i f).pending = s.pending := rfl

/-! ### setSlot -/

@[simp] theorem State.setSlot_phase (n : Nat) (v : Slot) : (s.setSlot n v).phase = s.phase := rfl
@[simp] theorem State.setSlot_timestamp (n : Nat) (v : Slot) : (s.setSlot n v).timestamp = s.timestamp := rfl
@[simp] theorem State.setSlot_suiteMinute (n : Nat) (v : Slot) : (s.setSlot n v).suiteMinute = s.suiteMinute := rfl
@[simp] theorem State.setSlot_suiteSecond (n : Nat) (v : Slot) : (s.setSlot n v).suiteSecond = s.suiteSecond := rfl
@[simp] theorem State.setSlot_ports (n : Nat) (v : Slot) : (s.setSlot n v).ports = s.ports := rfl
@[simp] theorem State.setSlot_reels (n : Nat) (v : Slot) : (s.setSlot n v).reels = s.reels := rfl
@[simp] theorem State.setSlot_slots (n : Nat) (v : Slot) : (s.setSlot n v).slots = if v = .unknown then tableErase s.slots n else tablePut s.slots n v := rfl
@[simp] theorem State.setSlot_rack (n : Nat) (v : Slot) : (s.setSlot n v).rack = s.rack := rfl
@[simp] theorem State.setSlot_orders (n : Nat) (v : Slot) : (s.setSlot n v).orders = s.orders := rfl
@[simp] theorem State.setSlot_pendingRenumber (n : Nat) (v : Slot) : (s.setSlot n v).pendingRenumber = s.pendingRenumber := rfl
@[simp] theorem State.setSlot_renumberWork (n : Nat) (v : Slot) : (s.setSlot n v).renumberWork = s.renumberWork := rfl
@[simp] theorem State.setSlot_units (n : Nat) (v : Slot) : (s.setSlot n v).units = s.units := rfl
@[simp] theorem State.setSlot_lines (n : Nat) (v : Slot) : (s.setSlot n v).lines = s.lines := rfl
@[simp] theorem State.setSlot_passes (n : Nat) (v : Slot) : (s.setSlot n v).passes = s.passes := rfl
@[simp] theorem State.setSlot_heldEdits (n : Nat) (v : Slot) : (s.setSlot n v).heldEdits = s.heldEdits := rfl
@[simp] theorem State.setSlot_alerts (n : Nat) (v : Slot) : (s.setSlot n v).alerts = s.alerts := rfl
@[simp] theorem State.setSlot_lostMark (n : Nat) (v : Slot) : (s.setSlot n v).lostMark = s.lostMark := rfl
@[simp] theorem State.setSlot_checkSkew (n : Nat) (v : Slot) : (s.setSlot n v).checkSkew = s.checkSkew := rfl
@[simp] theorem State.setSlot_settings (n : Nat) (v : Slot) : (s.setSlot n v).settings = s.settings := rfl
@[simp] theorem State.setSlot_loadOutcome (n : Nat) (v : Slot) : (s.setSlot n v).loadOutcome = s.loadOutcome := rfl
@[simp] theorem State.setSlot_clampedAtLoad (n : Nat) (v : Slot) : (s.setSlot n v).clampedAtLoad = s.clampedAtLoad := rfl
@[simp] theorem State.setSlot_lastWriteBack (n : Nat) (v : Slot) : (s.setSlot n v).lastWriteBack = s.lastWriteBack := rfl
@[simp] theorem State.setSlot_settingsMemory (n : Nat) (v : Slot) : (s.setSlot n v).settingsMemory = s.settingsMemory := rfl
@[simp] theorem State.setSlot_writeBack (n : Nat) (v : Slot) : (s.setSlot n v).writeBack = s.writeBack := rfl
@[simp] theorem State.setSlot_heldWrite (n : Nat) (v : Slot) : (s.setSlot n v).heldWrite = s.heldWrite := rfl
@[simp] theorem State.setSlot_pending (n : Nat) (v : Slot) : (s.setSlot n v).pending = s.pending := rfl

/-! ### One value for each port, one for each transport -/

@[simp] theorem PerPort.get_set_self {α : Type} (b : PerPort α) (p : Port) (a : α) : (b.set p a).get p = a := by
  cases p <;> rfl

theorem PerPort.get_set_ne {α : Type} (b : PerPort α) {p q : Port} (a : α) (h : q ≠ p) :
    (b.set p a).get q = b.get q := by
  cases p <;> cases q <;> first | rfl | exact absurd rfl h

theorem PerPort.get_set {α : Type} (b : PerPort α) (p q : Port) (a : α) :
    (b.set p a).get q = if q = p then a else b.get q := by
  cases p <;> cases q <;> rfl

@[simp] theorem PerPort.set_set {α : Type} (b : PerPort α) (p : Port) (a c : α) : (b.set p a).set p c = b.set p c := by
  cases p <;> rfl

@[simp] theorem PerPort.set_get {α : Type} (b : PerPort α) (p : Port) : b.set p (b.get p) = b := by cases p <;> rfl

theorem PerPort.set_comm {α : Type} (b : PerPort α) {p q : Port} (a c : α) (h : p ≠ q) :
    (b.set p a).set q c = (b.set q c).set p a := by
  cases p <;> cases q <;> first | rfl | exact absurd rfl h

@[simp] theorem PerPort.get_const {α : Type} (a : α) (p : Port) : (PerPort.const a).get p = a := by cases p <;> rfl

theorem PerPort.ext_get {α : Type} {b c : PerPort α} (h : ∀ p, b.get p = c.get p) : b = c := by
  obtain ⟨b0, b1, b2, b3, b4, b5⟩ := b
  obtain ⟨c0, c1, c2, c3, c4, c5⟩ := c
  have h0 := h .p0; have h1 := h .p1; have h2 := h .p2; have h3 := h .p3; have h4 := h .p4; have h5 := h .p5
  simp only [PerPort.get] at h0 h1 h2 h3 h4 h5
  subst h0 h1 h2 h3 h4 h5; rfl

@[simp] theorem PerTransport.get_set_self {α : Type} (b : PerTransport α) (t : Transport) (a : α) :
    (b.set t a).get t = a := by cases t <;> rfl

theorem PerTransport.get_set {α : Type} (b : PerTransport α) (t u : Transport) (a : α) :
    (b.set t a).get u = if u = t then a else b.get u := by
  cases t <;> cases u <;> rfl

@[simp] theorem PerTransport.set_set {α : Type} (b : PerTransport α) (t : Transport) (a c : α) :
    (b.set t a).set t c = b.set t c := by cases t <;> rfl

@[simp] theorem PerTransport.set_get {α : Type} (b : PerTransport α) (t : Transport) : b.set t (b.get t) = b := by
  cases t <;> rfl

@[simp] theorem PerTransport.get_const {α : Type} (a : α) (t : Transport) : (PerTransport.const a).get t = a := by
  cases t <;> rfl

/-! ### What an update leaves in the records that the readers read -/

@[simp] theorem State.port_setPort_self (p : Port) (q : PortState) : (s.setPort p q).port p = q := by
  simp [State.port]

theorem State.port_setPort (p q : Port) (v : PortState) :
    (s.setPort p v).port q = if q = p then v else s.port q := PerPort.get_set _ _ _ _

@[simp] theorem State.setPort_setPort (p : Port) (q v : PortState) : (s.setPort p q).setPort p v = s.setPort p v := by
  simp [State.setPort]

@[simp] theorem State.unit_setUnit_self (t : Transport) (u : RegUnit) : (s.setUnit t u).unit t = u := by
  simp [State.unit]

theorem State.unit_setUnit (t v : Transport) (u : RegUnit) :
    (s.setUnit t u).unit v = if v = t then u else s.unit v := PerTransport.get_set _ _ _ _

@[simp] theorem State.setUnit_setUnit (t : Transport) (u v : RegUnit) : (s.setUnit t u).setUnit t v = s.setUnit t v := by
  simp [State.setUnit]

@[simp] theorem State.pass_setPass_self (t : Transport) (p : Option Pass) : (s.setPass t p).pass t = p := by
  simp [State.pass]

theorem State.pass_setPass (t v : Transport) (p : Option Pass) :
    (s.setPass t p).pass v = if v = t then p else s.pass v := PerTransport.get_set _ _ _ _

@[simp] theorem State.setPass_setPass (t : Transport) (p q : Option Pass) :
    (s.setPass t p).setPass t q = s.setPass t q := by
  simp [State.setPass]

@[simp] theorem State.line_setLine_self (t : Transport) (l : Lines) : (s.setLine t l).line t = l := by
  simp [State.line]

theorem State.line_setLine (t v : Transport) (l : Lines) :
    (s.setLine t l).line v = if v = t then l else s.line v := PerTransport.get_set _ _ _ _

end Sys2Proof.Machine
end

