-- ==== Sys2Proof/Laws/Tables.lean ====
section
/-! SUPPORT. Reading after writing in a sparse table, and that every table operation keeps the rising order of its
places. -/

namespace Sys2Proof.Machine

variable {α : Type}

/-- Every place listed in a table with a given head lies above the head. -/
theorem tableOrdered_cons {j : Nat} {a : α} {m : Table α} :
    tableOrdered ((j, a) :: m) ↔ (∀ e ∈ m, j < e.1) ∧ tableOrdered m := List.pairwise_cons

theorem tableGet_none_of_lt {m : Table α} {k : Nat} (h : ∀ e ∈ m, k < e.1) : tableGet m k = none := by
  induction m with
  | nil => rfl
  | cons e m ih =>
    obtain ⟨j, b⟩ := e
    have hj : k < j := h (j, b) (by simp)
    simp only [tableGet, if_neg (show ¬ j = k by omega)]
    exact ih (fun e he => h e (by simp [he]))

@[simp] theorem tableGet_put_self (m : Table α) (k : Nat) (a : α) : tableGet (tablePut m k a) k = some a := by
  induction m with
  | nil => simp [tablePut, tableGet]
  | cons e m ih =>
    obtain ⟨j, b⟩ := e
    simp only [tablePut]
    split
    · simp [tableGet]
    · split
      · simp [tableGet]
      · rename_i h1 h2
        simp [tableGet, h2, ih]

theorem tableGet_put_ne (m : Table α) {k n : Nat} (a : α) (h : n ≠ k) :
    tableGet (tablePut m k a) n = tableGet m n := by
  induction m with
  | nil => simp [tablePut, tableGet, Ne.symm h]
  | cons e m ih =>
    obtain ⟨j, b⟩ := e
    simp only [tablePut]
    split
    · simp [tableGet, Ne.symm h]
    · split
      · rename_i h1 h2
        simp [tableGet, h2, Ne.symm h]
      · simp [tableGet, ih]

theorem tableGet_put (m : Table α) (k n : Nat) (a : α) :
    tableGet (tablePut m k a) n = if n = k then some a else tableGet m n := by
  split
  · rename_i h; simp [h]
  · rename_i h; exact tableGet_put_ne m a h

theorem mem_tablePut {m : Table α} {k : Nat} {a : α} {e : Nat × α} (h : e ∈ tablePut m k a) :
    e = (k, a) ∨ e ∈ m := by
  induction m with
  | nil => simpa [tablePut] using h
  | cons x m ih =>
    obtain ⟨j, b⟩ := x
    simp only [tablePut] at h
    split at h
    · simpa using h
    · split at h
      · simp only [List.mem_cons] at h ⊢; tauto
      · simp only [List.mem_cons] at h ⊢
        rcases h with h | h
        · tauto
        · rcases ih h with h | h <;> tauto

/-- A table keeps its order when a place is filled. -/
theorem tableOrdered_put {m : Table α} (h : tableOrdered m) (k : Nat) (a : α) : tableOrdered (tablePut m k a) := by
  induction m with
  | nil => simp [tablePut, tableOrdered]
  | cons e m ih =>
    obtain ⟨j, b⟩ := e
    obtain ⟨h1, h2⟩ := tableOrdered_cons.1 h
    simp only [tablePut]
    split
    · rename_i hk
      refine tableOrdered_cons.2 ⟨?_, h⟩
      intro e he
      simp only [List.mem_cons] at he
      rcases he with rfl | he
      · exact hk
      · have := h1 e he; omega
    · split
      · rename_i _ hk
        subst hk
        exact tableOrdered_cons.2 ⟨h1, h2⟩
      · refine tableOrdered_cons.2 ⟨?_, ih h2⟩
        intro e he
        rcases mem_tablePut he with rfl | he
        · simp only; omega
        · exact h1 e he

/-- Filling a place twice leaves the second record. -/
@[simp] theorem tablePut_put (m : Table α) (k : Nat) (a b : α) :
    tablePut (tablePut m k a) k b = tablePut m k b := by
  induction m with
  | nil => simp [tablePut]
  | cons e m ih =>
    obtain ⟨j, c⟩ := e
    simp only [tablePut]
    split
    · simp [tablePut]
    · split
      · simp [tablePut]
      · rename_i h1 h2
        simp [tablePut, h1, h2, ih]

/-- Filling a place with the record that it holds changes nothing. -/
theorem tablePut_get {m : Table α} {k : Nat} {a : α} (h : tableOrdered m) (hk : tableGet m k = some a) :
    tablePut m k a = m := by
  induction m with
  | nil => simp [tableGet] at hk
  | cons e m ih =>
    obtain ⟨j, b⟩ := e
    obtain ⟨h1, h2⟩ := tableOrdered_cons.1 h
    simp only [tableGet] at hk
    by_cases hj : j = k
    · subst hj
      simp at hk
      simp [tablePut, hk]
    · simp only [if_neg hj] at hk
      have hlt : ¬ k < j := by
        intro hlt
        rw [tableGet_none_of_lt (fun e he => lt_trans hlt (h1 e he))] at hk
        cases hk
      simp [tablePut, hj, hlt, ih h2 hk]

theorem mem_of_tableGet {m : Table α} {k : Nat} {a : α} (h : tableGet m k = some a) : (k, a) ∈ m := by
  induction m with
  | nil => simp [tableGet] at h
  | cons e m ih =>
    obtain ⟨j, b⟩ := e
    simp only [tableGet] at h
    split at h
    · rename_i hj; cases h; simp [hj]
    · simp [ih h]

/-- In an ordered table the listed records are the ones that the places hold. -/
theorem tableGet_of_mem {m : Table α} {e : Nat × α} (h : tableOrdered m) (he : e ∈ m) : tableGet m e.1 = some e.2 := by
  induction m with
  | nil => cases he
  | cons x m ih =>
    obtain ⟨j, b⟩ := x
    obtain ⟨h1, h2⟩ := tableOrdered_cons.1 h
    rcases List.mem_cons.1 he with rfl | he
    · simp [tableGet]
    · have := h1 e he
      simp only [tableGet, if_neg (show ¬ j = e.1 by omega)]
      exact ih h2 he

theorem mem_iff_tableGet {m : Table α} (h : tableOrdered m) (k : Nat) (a : α) :
    (k, a) ∈ m ↔ tableGet m k = some a :=
  ⟨fun he => tableGet_of_mem h he, mem_of_tableGet⟩

/-- Filling a place that holds a record maps that record alone. -/
theorem tablePut_eq_map {m : Table α} {k : Nat} {a : α} (b : α) (h : tableOrdered m) (hk : tableGet m k = some a) :
    tablePut m k b = m.map (fun e => if e.1 = k then (k, b) else e) := by
  induction m with
  | nil => simp [tableGet] at hk
  | cons e m ih =>
    obtain ⟨j, c⟩ := e
    obtain ⟨h1, h2⟩ := tableOrdered_cons.1 h
    simp only [tableGet] at hk
    by_cases hj : j = k
    · subst hj
      have : m.map (fun e => if e.1 = j then (j, b) else e) = m := by
        conv_rhs => rw [← List.map_id m]
        refine List.map_congr_left (fun e he => ?_)
        have := h1 e he
        simp [show ¬ e.1 = j by omega]
      simp [tablePut, this]
    · simp only [if_neg hj] at hk
      have hlt : ¬ k < j := by
        intro hlt
        rw [tableGet_none_of_lt (fun e he => lt_trans hlt (h1 e he))] at hk
        cases hk
      simp [tablePut, hj, hlt, ih h2 hk]

/-- Changing the record of a place is filling the place with the changed record. -/
theorem tableModify_eq_put {m : Table α} {k : Nat} {a : α} (f : α → α) (h : tableOrdered m)
    (hk : tableGet m k = some a) : tableModify m k f = tablePut m k (f a) := by
  rw [tablePut_eq_map _ h hk, tableModify]
  refine List.map_congr_left (fun e he => ?_)
  split
  · rename_i hj
    have := tableGet_of_mem h he
    rw [hj, hk] at this
    cases this
    rw [hj]
  · rfl

theorem tableGet_modify (m : Table α) (k n : Nat) (f : α → α) :
    tableGet (tableModify m k f) n = if n = k then (tableGet m n).map f else tableGet m n := by
  induction m with
  | nil => simp [tableModify, tableGet]
  | cons e m ih =>
    obtain ⟨j, b⟩ := e
    simp only [tableModify, List.map_cons] at ih ⊢
    by_cases hj : j = k <;> by_cases hn : j = n
    · subst hj; subst hn; simp [tableGet]
    · subst hj
      simp only [tableGet, if_neg hn, ite_true]
      exact ih
    · subst hn
      simp [tableGet, hj]
    · simp only [tableGet, if_neg hn, if_neg hj]
      exact ih

/-- A table keeps its order when a record is changed. -/
theorem tableOrdered_modify {m : Table α} (h : tableOrdered m) (k : Nat) (f : α → α) :
    tableOrdered (tableModify m k f) := by
  refine (List.pairwise_map).2 (h.imp ?_)
  intro a b hab
  split <;> split <;> exact hab

/-- A table keeps its order when a place is emptied. -/
theorem tableOrdered_erase {m : Table α} (h : tableOrdered m) (k : Nat) : tableOrdered (tableErase m k) :=
  h.filter _

theorem tableGet_filter_ne (m : Table α) (k n : Nat) :
    tableGet (tableErase m k) n = if n = k then none else tableGet m n := by
  induction m with
  | nil => simp [tableErase, tableGet]
  | cons e m ih =>
    obtain ⟨j, b⟩ := e
    simp only [tableErase, List.filter_cons] at ih ⊢
    by_cases hj : j = k
    · subst hj
      simp only [ne_eq, not_true_eq_false, decide_false, Bool.false_eq_true, ite_false, ih, tableGet]
      by_cases hn : n = j
      · simp [hn]
      · simp [hn, Ne.symm hn]
    · simp only [ne_eq, hj, not_false_eq_true, decide_true, ite_true, tableGet, ih]
      by_cases hn : j = n
      · subst hn; simp [hj]
      · simp [hn]

/-- The lowest free number is below the limit, free, and every number below it is used. -/
theorem lowestFree_eq_some {limit k : Nat} {used : List Nat} :
    lowestFree limit used = some k ↔ k < limit ∧ k ∉ used ∧ ∀ j < k, j ∈ used := by
  rw [lowestFree, List.find?_range_eq_some]
  constructor
  · rintro ⟨h1, h2, h3⟩
    refine ⟨by simpa using h2, by simpa using h1, fun j hj => by simpa using h3 j hj⟩
  · rintro ⟨h1, h2, h3⟩
    refine ⟨by simpa using h2, by simpa using h1, fun j hj => by simpa using h3 j hj⟩

theorem lowestFree_eq_none {limit : Nat} {used : List Nat} :
    lowestFree limit used = none ↔ ∀ j < limit, j ∈ used := by
  rw [lowestFree, List.find?_range_eq_none]
  simp

/-! ### The reel table -/

theorem State.findReel_mem {s : State} {id i : Nat} {r : Reel} (h : s.findReel id = some (i, r)) :
    (i, r) ∈ s.reels ∧ r.id = id ∧ id ≠ 0 := by
  unfold State.findReel at h
  split at h
  · cases h
  · rename_i h0
    exact ⟨List.mem_of_find?_eq_some h, by simpa using List.find?_some h, h0⟩

/-- The record that a reel ID names stands in its place of the table. -/
theorem State.names_reelAt {s : State} {id i : Nat} {r : Reel} (h : s.names id i r) : s.reelAt i = some r :=
  tableGet_of_mem h.1 (State.findReel_mem h.2).1

theorem State.names_id {s : State} {id i : Nat} {r : Reel} (h : s.names id i r) : r.id = id :=
  (State.findReel_mem h.2).2.1

end Sys2Proof.Machine
end

