-- ==== Sys2Proof/Laws/Ports.lean ====
section
/-! SUPPORT. What taking a frame, placing a reply and placing a notice do, in the terms of Safety.lean. -/

namespace Sys2Proof.Machine

variable (s : State) (p : Port)

/-! ### Notices and replies as changes of the ports alone -/

theorem notify_eq (n : Notice) : notify p n s = { s with ports := addNotice p n s.ports } := rfl

theorem notifyAll_eq (n : Notice) : notifyAll n s = { s with ports := addNoticeAll n s.ports } := by
  simp only [notifyAll, allPorts, List.foldl, notify, State.setPort, State.port, PerPort.set, PerPort.get, addNoticeAll]

theorem placeReply_eq (code : ResultCode) (body : Bytes) :
    placeReply p code body s = { s with ports := withReply p code body s.alerts s.ports } := rfl

theorem sendOut_eq (bytes : Bytes) (clocks : Nat) :
    sendOut p bytes clocks s =
      { s with ports := s.ports.set p { s.port p with dataOut := clockOut bytes clocks } } := rfl

theorem ignoreFrame_eq : ignoreFrame p s =
    { s with
      ports := s.ports.set p { s.port p with dataOut := [], flags := { (s.port p).flags with ignored := true } } } :=
  rfl

/-- A port that takes a frame is IDLE or holds a reply. -/
theorem rdy_cases {s : State} {p : Port} (h : s.rdy p = true) :
    (s.port p).status = .idle ∨ ∃ r, (s.port p).status = .reply r := by
  unfold State.rdy at h
  split at h <;> simp_all

theorem takeFrame_eq {s : State} {p : Port} (h : s.rdy p = true) : takeFrame p s = { s with ports := s.taking p } := by
  rcases rdy_cases h with h | ⟨r, h⟩ <;>
    simp [takeFrame, h, State.taking, PortState.taking, PortState.holdsReply, State.setPort]

/-- Whatever the port, taking a frame changes the ports alone. -/
theorem takeFrame_ports : takeFrame p s = { s with ports := (takeFrame p s).ports } := by
  unfold takeFrame; split <;> rfl

theorem onFrame_rdy {s : State} {p : Port} (f : State → State) (h : s.rdy p = true) :
    onFrame p f s = f { s with ports := s.taking p } := by
  rw [← takeFrame_eq h]
  rcases rdy_cases h with h | ⟨r, h⟩ <;> simp [onFrame, h]

theorem onFrame_closed {s : State} {p : Port} (f : State → State) (h : (s.port p).status = .closed) :
    onFrame p f s = s := by simp [onFrame, h]

theorem onFrame_working {s : State} {p : Port} (f : State → State) (h : (s.port p).status = .working) :
    onFrame p f s = ignoreFrame p s := by simp [onFrame, h]

/-- A frame leads to one of three states: none of its effects, the flag alone, or what its owner decides. -/
theorem onFrame_cases (f : State → State) :
    onFrame p f s = s ∨ onFrame p f s = ignoreFrame p s ∨ onFrame p f s = f (takeFrame p s) := by
  unfold onFrame; split <;> simp

/-- The state that an owner's answer leads to. -/
def Answer.placed (a : Answer) (p : Port) : State :=
  { a.state with ports := withReply p a.code a.body a.state.alerts a.state.ports }

theorem serve_permitted {k : ReqKind} {p : Port} (owner : State → Answer) (h : permitted k p = true) :
    serve p k owner s = (owner s).placed p := by simp [serve, h, Answer.placed, placeReply_eq]

/-- A permitted request at a port that takes it leads to what its owner answers. -/
theorem request_rdy {s : State} {p : Port} {k : ReqKind} (owner : State → Answer) (h : s.rdy p = true)
    (hk : permitted k p = true) : request p k owner s = (owner { s with ports := s.taking p }).placed p := by
  rw [request, onFrame_rdy _ h, serve_permitted _ _ hk]

@[simp] theorem refuse_placed (code : ResultCode) :
    (refuse code { s with ports := s.taking p }).placed p = s.replying p code [] := rfl

@[simp] theorem Answer.placed_mk (code : ResultCode) (body : Bytes) :
    (Answer.mk code body s).placed p = { s with ports := withReply p code body s.alerts s.ports } := rfl

/-! ### Roles -/

/-- The role check permits exactly the kinds of the port's column in R171. -/
theorem permitted_iff (k : ReqKind) (p : Port) : permitted k p = true ↔ k ∈ roleOf p := by
  cases p <;> cases k <;> decide

/-- Every request reaches its port as a frame, and its owner is asked only when the role permits it. -/
theorem exec_request {c : Instr} {p : Port} {k : ReqKind} {args : List Nat} (h : c.request = some (p, k, args)) :
    ∃ f : State → State, (∀ s, exec c s = .next (onFrame p f s)) ∧
      (permitted k p = false → ∀ s, f s = placeReply p .notPermitted [] s) := by
  cases c <;> simp only [Instr.request, Option.some.injEq, Prod.mk.injEq, reduceCtorEq] at h
  case writeSetting q item zone value =>
    obtain ⟨rfl, rfl, -⟩ := h
    exact ⟨_, fun s => rfl, fun hk s => by simp [serveSetting, hk]⟩
  all_goals
    obtain ⟨rfl, rfl, -⟩ := h
    exact ⟨_, fun s => rfl, fun hk s => by simp [serve, hk]⟩

/-! ### The notice queue -/

/-- A placed notice is appended or dropped, and the port keeps its state and what it sends (R167, R168). -/
theorem placeNotice_cases (q : PortState) (n : Notice) :
    (q.status = .closed ∧ q.placeNotice n = q) ∨
    (q.status ≠ .closed ∧ q.marker = none ∧ entriesTaken q.notices + n.entries ≤ Config.noticeEntries ∧
      q.placeNotice n = { q with notices := q.notices ++ [n] }) ∨
    (q.status ≠ .closed ∧ (q.marker ≠ none ∨ Config.noticeEntries < entriesTaken q.notices + n.entries) ∧
      q.placeNotice n = q.dropNotice n) := by
  unfold PortState.placeNotice
  split
  · left; simp_all
  · right
    rename_i hc
    split
    · left; rename_i h; exact ⟨hc, h.1, h.2, rfl⟩
    · right
      rename_i h
      refine ⟨hc, ?_, rfl⟩
      by_cases hm : q.marker = none
      · right
        by_contra hle
        exact h ⟨hm, by omega⟩
      · exact Or.inl hm

@[simp] theorem placeNotice_status (q : PortState) (n : Notice) : (q.placeNotice n).status = q.status := by
  rcases placeNotice_cases q n with ⟨_, h⟩ | ⟨_, _, _, h⟩ | ⟨_, _, h⟩ <;> simp [h, PortState.dropNotice]

@[simp] theorem placeNotice_dataOut (q : PortState) (n : Notice) : (q.placeNotice n).dataOut = q.dataOut := by
  rcases placeNotice_cases q n with ⟨_, h⟩ | ⟨_, _, _, h⟩ | ⟨_, _, h⟩ <;> simp [h, PortState.dropNotice]

theorem entriesTaken_append (ns : List Notice) (n : Notice) :
    entriesTaken (ns ++ [n]) = entriesTaken ns + n.entries := by
  simp [entriesTaken]

/-- Placing a notice keeps the limits of the queue (R167, R168). -/
theorem placeNotice_queueOk {q : PortState} (h : q.queueOk) (n : Notice) : (q.placeNotice n).queueOk := by
  obtain ⟨h1, h2⟩ := h
  rcases placeNotice_cases q n with ⟨_, e⟩ | ⟨_, hm, hn, e⟩ | ⟨_, _, e⟩
  · rw [e]; exact ⟨h1, h2⟩
  · rw [e]
    exact ⟨by simpa [entriesTaken_append] using hn, by simp [hm]⟩
  · rw [e]
    refine ⟨h1, ?_⟩
    intro m hm
    simp only [PortState.dropNotice] at hm
    split at hm
    · rename_i m' hm'
      have := h2 m' hm'
      simp only [Option.mem_def, Option.some.injEq] at hm
      subst hm
      simp only [satSucc]
      split <;> omega
    · simp only [Option.mem_def, Option.some.injEq] at hm
      subst hm
      simp

end Sys2Proof.Machine
end

