-- ==== Sys2Proof/Laws/Board.lean ====
section
/-! SUPPORT. What a raise and a removal can do to the alert board, and that both keep its limits. -/

namespace Sys2Proof.Machine

variable (s : State)

/-! ### The shape of the operations: they change the board and the queues alone -/

theorem appendAlert_eq (code : AlertCode) (reel : Option Nat) (place : Option AlertPlace) :
    appendAlert code reel place s =
      { s with
        alerts := s.alerts ++ [{ code := code, reel := reel, place := place, minute := s.suiteMinute, count := 1 }]
        ports := addNoticeAll (.alertRaised code reel place (s.alerts.length + 1)) s.ports } := by
  rw [appendAlert, notifyAll_eq]

/-- A raise merges, counts on BOARD_FULL, appends, or appends BOARD_FULL (R153, R154). -/
theorem raiseAlert_cases (code : AlertCode) (reel : Option Nat) (place : Option AlertPlace) :
    ((s.alertFor code reel).isSome ∧ raiseAlert code reel place s =
      { s with alerts := s.alerts.map (fun a => if a.isFor code reel then a.merged place else a) }) ∨
    (s.alertFor code reel = none ∧ s.boardFull = true ∧ raiseAlert code reel place s =
      { s with
        alerts := s.alerts.map (fun a =>
          if a.code = .boardFull then { a with count := satSucc 255 a.count } else a) }) ∨
    (s.alertFor code reel = none ∧ s.boardFull = false ∧ s.otherCount < Config.boardAlerts ∧
      raiseAlert code reel place s = appendAlert code reel place s) ∨
    (s.alertFor code reel = none ∧ s.boardFull = false ∧ Config.boardAlerts ≤ s.otherCount ∧
      raiseAlert code reel place s = appendAlert .boardFull none none s) := by
  unfold raiseAlert
  split
  · rename_i h; exact Or.inl ⟨h, rfl⟩
  · rename_i h
    have h : s.alertFor code reel = none := by simpa using h
    split
    · rename_i hb; exact Or.inr (Or.inl ⟨h, hb, rfl⟩)
    · rename_i hb
      have hb : s.boardFull = false := by simpa using hb
      split
      · rename_i hc; exact Or.inr (Or.inr (Or.inl ⟨h, hb, hc, rfl⟩))
      · rename_i hc; exact Or.inr (Or.inr (Or.inr ⟨h, hb, by omega, rfl⟩))

/-- No alert of the code and reel is on the board exactly when the look-up finds none. -/
theorem alertFor_eq_none (code : AlertCode) (reel : Option Nat) :
    s.alertFor code reel = none ↔ ∀ a ∈ s.alerts, ¬(a.code = code ∧ a.reel = reel) := by
  simp [State.alertFor, Alert.isFor, List.find?_eq_none]

theorem boardFull_eq_false : s.boardFull = false ↔ ∀ a ∈ s.alerts, a.code ≠ .boardFull := by
  simp [State.boardFull]

/-! ### The limits of the board -/

/-- A change of the alerts that keeps code and reel, and counts within 1 to 255, keeps the limits. -/
theorem boardOk_map {b : List Alert} (h : boardOk b) (f : Alert → Alert)
    (hf : ∀ a, (f a).code = a.code ∧ (f a).reel = a.reel ∧
      (1 ≤ a.count ∧ a.count ≤ 255 → 1 ≤ (f a).count ∧ (f a).count ≤ 255)) : boardOk (b.map f) := by
  obtain ⟨h1, h2, h3, h4⟩ := h
  refine ⟨?_, ?_, ?_, ?_⟩
  · rw [List.filter_map, List.length_map]
    have : ((fun a : Alert => decide (a.code ≠ .boardFull)) ∘ f) = fun a => decide (a.code ≠ .boardFull) := by
      funext a; simp [(hf a).1]
    rw [this]; exact h1
  · refine List.pairwise_map.2 (h2.imp ?_)
    intro a c hac
    rw [(hf a).1, (hf c).1, (hf a).2.1, (hf c).2.1]; exact hac
  · intro a ha
    obtain ⟨c, hc, rfl⟩ := List.mem_map.1 ha
    exact (hf c).2.2 (h3 c hc)
  · intro a ha
    obtain ⟨c, hc, rfl⟩ := List.mem_map.1 ha
    rw [(hf c).1, (hf c).2.1]; exact h4 c hc

/-- Fewer alerts keep the limits. -/
theorem boardOk_filter {b : List Alert} (h : boardOk b) (f : Alert → Bool) : boardOk (b.filter f) := by
  obtain ⟨h1, h2, h3, h4⟩ := h
  refine ⟨?_, h2.filter _, fun a ha => h3 a (List.mem_filter.1 ha).1, fun a ha => h4 a (List.mem_filter.1 ha).1⟩
  rw [List.filter_filter]
  refine le_trans (List.Sublist.length_le ?_) h1
  exact List.monotone_filter_right _ (by intro a; simp +contextual)

theorem satSucc_255 {v : Nat} (h : 1 ≤ v ∧ v ≤ 255) : 1 ≤ satSucc 255 v ∧ satSucc 255 v ≤ 255 := by
  unfold satSucc; split <;> omega

theorem boardOk_append {b : List Alert} (h : boardOk b) (a : Alert)
    (hnew : ∀ x ∈ b, ¬(x.code = a.code ∧ x.reel = a.reel)) (hcount : a.count = 1)
    (hfull : a.code = .boardFull → a.reel = none)
    (hroom : a.code ≠ .boardFull → (b.filter (fun a => a.code ≠ .boardFull)).length < Config.boardAlerts) :
    boardOk (b ++ [a]) := by
  obtain ⟨h1, h2, h3, h4⟩ := h
  refine ⟨?_, ?_, ?_, ?_⟩
  · rw [List.filter_append, List.length_append]
    by_cases hc : a.code = .boardFull
    · simp [hc]; simpa using h1
    · have := hroom hc
      simp [hc]; simpa using this
  · rw [List.pairwise_append]
    refine ⟨h2, by simp, ?_⟩
    intro x hx y hy
    simp only [List.mem_singleton] at hy
    subst hy; exact hnew x hx
  · intro x hx
    simp only [List.mem_append, List.mem_singleton] at hx
    rcases hx with hx | rfl
    · exact h3 x hx
    · omega
  · intro x hx
    simp only [List.mem_append, List.mem_singleton] at hx
    rcases hx with hx | rfl
    · exact h4 x hx
    · exact hfull

/-- Every raise keeps the limits of the board (R151, R153, R154). -/
theorem raiseAlert_boardOk {s : State} (h : boardOk s.alerts) (code : AlertCode) (reel : Option Nat)
    (place : Option AlertPlace) (hf : code = .boardFull → reel = none) :
    boardOk (raiseAlert code reel place s).alerts := by
  rcases raiseAlert_cases s code reel place with ⟨_, e⟩ | ⟨_, _, e⟩ | ⟨h1, h2, h3, e⟩ | ⟨h1, h2, h3, e⟩
  · rw [e]
    refine boardOk_map h _ (fun a => ?_)
    split
    · exact ⟨rfl, rfl, satSucc_255⟩
    · exact ⟨rfl, rfl, id⟩
  · rw [e]
    refine boardOk_map h _ (fun a => ?_)
    split
    · exact ⟨rfl, rfl, satSucc_255⟩
    · exact ⟨rfl, rfl, id⟩
  · rw [e]
    exact boardOk_append h _ ((alertFor_eq_none s code reel).1 h1) rfl hf (fun _ => h3)
  · rw [e]
    refine boardOk_append h _ ?_ rfl (fun _ => rfl) (fun hne => absurd rfl hne)
    intro x hx hc
    exact (boardFull_eq_false s).1 h2 x hx hc.1

/-- Taking an alert off the board changes the board and the queues alone. -/
theorem takeOffBoard_cases (code : AlertCode) (reel : Option Nat) (by_ : Option Port) :
    (s.alertFor code reel = none ∧ takeOffBoard code reel by_ s = s) ∨
    (∃ a, s.alertFor code reel = some a ∧ takeOffBoard code reel by_ s =
      { s with
        alerts := s.alerts.filter (fun a => !a.isFor code reel)
        ports := addNoticeAll (.alertCleared code reel a.count by_) s.ports }) := by
  unfold takeOffBoard
  split
  · rename_i h; exact Or.inl ⟨h, rfl⟩
  · rename_i a h; exact Or.inr ⟨a, h, notifyAll_eq _ _⟩

theorem takeOffBoard_boardOk {s : State} (h : boardOk s.alerts) (code : AlertCode) (reel : Option Nat)
    (by_ : Option Port) : boardOk (takeOffBoard code reel by_ s).alerts := by
  rcases takeOffBoard_cases s code reel by_ with ⟨_, e⟩ | ⟨a, _, e⟩
  · rw [e]; exact h
  · rw [e]; exact boardOk_filter h _

end Sys2Proof.Machine
end

