-- ==== Sys2Proof/Laws/Codec.lean ====
section
/-! SUPPORT. Writing a number in a field and reading it back, and the same for a row of fields (R180). -/

namespace Sys2Proof.Machine

@[simp] theorem le_length (n v : Nat) : (le n v).length = n := by
  induction n generalizing v with
  | zero => rfl
  | succ n ih => simp [le, ih]

/-- A number that fits its field is read back as it was written (R180). -/
theorem ofLe_le {n v : Nat} (h : v < 256 ^ n) : ofLe (le n v) = v := by
  induction n generalizing v with
  | zero => simp at h; simp [le, ofLe, h]
  | succ n ih =>
    have h1 : v / 256 < 256 ^ n := by
      rw [Nat.div_lt_iff_lt_mul (by norm_num)]; rw [pow_succ] at h; exact h
    simp only [le, ofLe, ih h1, BitVec.toNat_ofNat]
    have : v % 2 ^ 8 = v % 256 := by norm_num
    omega

/-- A signed byte is read back as it was written (R180). -/
theorem signedByte_byteOfSigned {v : Int} (h : fitsSigned v) : signedByte (byteOfSigned v) = v := by
  obtain ⟨h1, h2⟩ := h
  unfold signedByte byteOfSigned
  split <;> omega

theorem byteOfSigned_fits (v : Int) : fits 1 (byteOfSigned v) := by
  unfold fits byteOfSigned; omega

/-- The numbers fit their fields, one for each. -/
abbrev fitAll (widths args : List Nat) : Prop := List.Forall₂ (fun w v => v < 256 ^ w) widths args

theorem writeFields_length {widths args : List Nat} (h : fitAll widths args) :
    (writeFields widths args).length = widths.sum := by
  induction h with
  | nil => rfl
  | cons _ _ ih => simp [writeFields, ih]

/-- Numbers written as a row of fields are read back as they were (R180). -/
theorem readFields_writeFields {widths args : List Nat} (h : fitAll widths args) :
    readFields widths (writeFields widths args) = args := by
  induction h with
  | nil => rfl
  | cons hv _ ih =>
    rw [writeFields, readFields, List.take_left' (le_length _ _), List.drop_left' (le_length _ _), ih, ofLe_le hv]

end Sys2Proof.Machine
end

