-- ==== Sys2Proof/Laws/Keeps.lean ====
section
/-! SUPPORT. What the shared operations keep: one relation, proved once for each operation, from which the invariants
of the part follow. -/

namespace Sys2Proof.Machine

/-! ### Queues: a row of notices placed -/

/-- The ports `c` are the ports `b` after some notices have been placed or dropped. -/
inductive Notified : PerPort PortState → PerPort PortState → Prop
  | refl (b : PerPort PortState) : Notified b b
  | step {b c : PerPort PortState} (p : Port) (n : Notice) : Notified b c → Notified b (addNotice p n c)

theorem Notified.trans {a b c : PerPort PortState} (h : Notified a b) (k : Notified b c) : Notified a c := by
  induction k with
  | refl => exact h
  | step p n _ ih => exact ih.step p n

/-- Notices leave each port's link state and data out as they were. -/
theorem Notified.status {b c : PerPort PortState} (h : Notified b c) (p : Port) :
    (c.get p).status = (b.get p).status ∧ (c.get p).dataOut = (b.get p).dataOut := by
  induction h with
  | refl => exact ⟨rfl, rfl⟩
  | step q n _ ih =>
    unfold addNotice
    rw [PerPort.get_set]
    split
    · rename_i hq; subst hq; simpa using ih
    · exact ih

/-- Notices keep the limits of every queue (R167, R168). -/
theorem Notified.queueOk {b c : PerPort PortState} (h : Notified b c) (hb : ∀ p, (b.get p).queueOk) :
    ∀ p, (c.get p).queueOk := by
  induction h with
  | refl => exact hb
  | step q n _ ih =>
    intro p
    unfold addNotice
    rw [PerPort.get_set]
    split
    · exact placeNotice_queueOk (ih q) n
    · exact ih p

/-! ### Reels: the records changed in their places -/

/-- The counts of a reel that is not RENUMBERING are those of its list (R102, R121). -/
def Reel.counted (r : Reel) : Prop :=
  r.renumbering = false → r.openCount = countOpen r.defects ∧ r.blockingCount = countBlocking r.defects

/-- A record changed in its place: the ID and RENUMBERING flag as they were, the counts as true as they were. -/
structure ReelStep (a b : Reel) : Prop where
  id : b.id = a.id
  renumbering : b.renumbering = a.renumbering
  counted : a.counted → b.counted

theorem ReelStep.refl (r : Reel) : ReelStep r r := ⟨rfl, rfl, fun h => h⟩

theorem ReelStep.trans {a b c : Reel} (h : ReelStep a b) (k : ReelStep b c) : ReelStep a c :=
  ⟨k.id.trans h.id, k.renumbering.trans h.renumbering, fun x => k.counted (h.counted x)⟩

/-- A change that leaves the list of entries and its counts alone. -/
theorem ReelStep.same {a b : Reel} (h1 : b.id = a.id) (h2 : b.renumbering = a.renumbering)
    (h3 : b.defects = a.defects) (h4 : b.openCount = a.openCount) (h5 : b.blockingCount = a.blockingCount) :
    ReelStep a b := ⟨h1, h2, fun h hr => by rw [h3, h4, h5]; exact h (h2 ▸ hr)⟩

/-- A change of the list that counts it again. -/
theorem ReelStep.withDefects (r : Reel) (ds : List Defect) : ReelStep r (r.withDefects ds) :=
  ⟨rfl, rfl, fun _ _ => ⟨rfl, rfl⟩⟩

/-- Two tables with the same places, each record of the second a changed record of the first. -/
def ReelsStep (m n : Table Reel) : Prop := List.Forall₂ (fun a b => b.1 = a.1 ∧ ReelStep a.2 b.2) m n

theorem ReelsStep.refl (m : Table Reel) : ReelsStep m m := List.forall₂_same.2 (fun _ _ => ⟨rfl, .refl _⟩)

theorem ReelsStep.trans {a b c : Table Reel} (h : ReelsStep a b) (k : ReelsStep b c) : ReelsStep a c := by
  unfold ReelsStep at *
  induction h generalizing c with
  | nil => cases k; exact .nil
  | cons hx _ ih =>
    cases k with
    | cons hy hl => exact .cons ⟨hy.1.trans hx.1, hx.2.trans hy.2⟩ (ih hl)

theorem ReelsStep.map (m : Table Reel) (f : Nat × Reel → Nat × Reel)
    (hf : ∀ e ∈ m, (f e).1 = e.1 ∧ ReelStep e.2 (f e).2) : ReelsStep m (m.map f) := by
  unfold ReelsStep
  induction m with
  | nil => exact .nil
  | cons e m ih => exact .cons (hf e (by simp)) (ih (fun e he => hf e (by simp [he])))

theorem ReelsStep.places {m n : Table Reel} (h : ReelsStep m n) : n.map (·.1) = m.map (·.1) := by
  unfold ReelsStep at h
  induction h with
  | nil => rfl
  | cons hx _ ih => simp [hx.1, ih]

theorem ReelsStep.ids {m n : Table Reel} (h : ReelsStep m n) : n.map (·.2.id) = m.map (·.2.id) := by
  unfold ReelsStep at h
  induction h with
  | nil => rfl
  | cons hx _ ih => simp [hx.2.id, ih]

theorem tableOrdered_iff_places {α : Type} (m : Table α) : tableOrdered m ↔ (m.map (·.1)).Pairwise (· < ·) :=
  List.pairwise_map.symm

theorem ReelsStep.ordered {m n : Table Reel} (h : ReelsStep m n) (hm : tableOrdered m) : tableOrdered n := by
  rw [tableOrdered_iff_places] at *
  rw [h.places]; exact hm

/-- A change of records in their places keeps the table's form (R1). -/
theorem ReelsStep.tableOk {s t : State} (h : ReelsStep s.reels t.reels) (hs : s.reelTableOk) : t.reelTableOk := by
  obtain ⟨⟨h1, h2⟩, h3, h4⟩ := hs
  refine ⟨⟨h.ordered h1, ?_⟩, ?_, ?_⟩
  · have : ∀ k ∈ s.reels.map (·.1), k < Config.reelPlaces := by
      intro k hk; obtain ⟨e, he, rfl⟩ := List.mem_map.1 hk; exact h2 e he
    intro e he
    exact this e.1 (h.places ▸ List.mem_map.2 ⟨e, he, rfl⟩)
  · have : (s.reels.map (·.2.id)).Pairwise (· ≠ ·) := List.pairwise_map.2 h3
    rw [← h.ids] at this
    exact List.pairwise_map.1 this
  · have : ∀ k ∈ s.reels.map (·.2.id), k ≠ 0 := by
      intro k hk; obtain ⟨e, he, rfl⟩ := List.mem_map.1 hk; exact h4 e he
    intro e he
    exact this e.2.id (h.ids ▸ List.mem_map.2 ⟨e, he, rfl⟩)

theorem ReelsStep.countsOk {s t : State} (h : ReelsStep s.reels t.reels) (hs : s.countsOk) : t.countsOk := by
  unfold State.countsOk at *
  unfold ReelsStep at h
  generalize s.reels = m at *
  generalize t.reels = n at *
  induction h with
  | nil => simp
  | cons hx _ ih =>
    intro e he
    rcases List.mem_cons.1 he with rfl | he
    · exact hx.2.counted (hs _ (by simp))
    · exact ih (fun e he => hs e (by simp [he])) e he

/-! ### The relation -/

/-- What every shared operation keeps. -/
structure Keeps (s t : State) : Prop where
  phase : t.phase = s.phase
  pending : t.pending = s.pending
  settings : t.settings = s.settings
  memory : t.settingsMemory = s.settingsMemory
  writeBack : t.writeBack = s.writeBack
  heldWrite : t.heldWrite = s.heldWrite
  lostMark : t.lostMark = s.lostMark
  checkSkew : t.checkSkew = s.checkSkew
  renumber : t.pendingRenumber = s.pendingRenumber
  ports : Notified s.ports t.ports
  board : boardOk s.alerts → boardOk t.alerts
  reels : tableOrdered s.reels → ReelsStep s.reels t.reels
  speed : s.speedOk → t.speedOk

theorem Keeps.refl (s : State) : Keeps s s :=
  ⟨rfl, rfl, rfl, rfl, rfl, rfl, rfl, rfl, rfl, .refl _, id, fun _ => .refl _, id⟩

theorem Keeps.trans {s t u : State} (h : Keeps s t) (k : Keeps t u) : Keeps s u :=
  ⟨k.phase.trans h.phase, k.pending.trans h.pending, k.settings.trans h.settings, k.memory.trans h.memory,
    k.writeBack.trans h.writeBack, k.heldWrite.trans h.heldWrite, k.lostMark.trans h.lostMark,
    k.checkSkew.trans h.checkSkew, k.renumber.trans h.renumber, h.ports.trans k.ports,
    fun x => k.board (h.board x), fun x => (h.reels x).trans (k.reels ((h.reels x).ordered x)),
    fun x => k.speed (h.speed x)⟩

/-- The last operation first. -/
theorem Keeps.after {s t u : State} (k : Keeps t u) (h : Keeps s t) : Keeps s u := h.trans k

/-- The fields that the relation does not speak of may change in any way. -/
theorem Keeps.rest (s : State) (timestamp : Word32) (minute second : Nat) (slots : Table Slot) (rack : Table Nat)
    (orders : Table MoveOrder) (work : Option RenumberWork) (lines : PerTransport Lines)
    (passes : PerTransport (Option Pass)) (edits : Option HeldEdits) :
    Keeps s { s with
      timestamp := timestamp, suiteMinute := minute, suiteSecond := second, slots := slots, rack := rack,
      orders := orders, renumberWork := work, lines := lines, passes := passes, heldEdits := edits } :=
  ⟨rfl, rfl, rfl, rfl, rfl, rfl, rfl, rfl, rfl, .refl _, id, fun _ => .refl _, id⟩

theorem Keeps.foldl {α : Type} {f : State → α → State} (h : ∀ s a, Keeps s (f s a)) (l : List α) (s : State) :
    Keeps s (l.foldl f s) := by
  induction l generalizing s with
  | nil => exact .refl s
  | cons a l ih => exact (h s a).trans (ih _)

theorem Keeps.putReel {s : State} {i : Nat} {a b : Reel} (ha : s.reelAt i = some a) (h : ReelStep a b) :
    Keeps s (s.putReel i b) :=
  ⟨rfl, rfl, rfl, rfl, rfl, rfl, rfl, rfl, rfl, .refl _, id, fun ho => by
    rw [State.putReel_reels, tablePut_eq_map b ho ha]
    refine ReelsStep.map _ _ (fun e he => ?_)
    split
    · rename_i hi
      have := tableGet_of_mem ho he
      rw [hi] at this
      have hae : a = e.2 := Option.some.inj (ha.symm.trans this)
      exact ⟨hi.symm, hae ▸ h⟩
    · exact ⟨rfl, .refl _⟩, id⟩

/-- The same for a record found by its ID. -/
theorem Keeps.putFound {s : State} {id i : Nat} {a b : Reel} (ha : s.findReel id = some (i, a)) (h : ReelStep a b) :
    Keeps s (s.putReel i b) := by
  have key : tableOrdered s.reels → Keeps s (s.putReel i b) := fun ho =>
    .putReel (tableGet_of_mem ho (State.findReel_mem ha).1) h
  exact ⟨rfl, rfl, rfl, rfl, rfl, rfl, rfl, rfl, rfl, .refl _, fun x => x, fun ho => (key ho).reels ho, fun x => x⟩

theorem Keeps.modReel (s : State) (i : Nat) {f : Reel → Reel} (h : ∀ r, ReelStep r (f r)) :
    Keeps s (s.modReel i f) :=
  ⟨rfl, rfl, rfl, rfl, rfl, rfl, rfl, rfl, rfl, .refl _, id, fun _ => by
    refine ReelsStep.map _ _ (fun e _ => ?_)
    split
    · exact ⟨rfl, h _⟩
    · exact ⟨rfl, .refl _⟩, id⟩

theorem Keeps.setUnit (s : State) (t : Transport) (u : RegUnit) (h : (s.unit t).setCode ≤ 7 → u.setCode ≤ 7) :
    Keeps s (s.setUnit t u) :=
  ⟨rfl, rfl, rfl, rfl, rfl, rfl, rfl, rfl, rfl, .refl _, id, fun _ => .refl _, fun hs v => by
    rw [State.unit_setUnit]
    split
    · exact h (hs t)
    · exact hs v⟩

theorem Keeps.setPass (s : State) (t : Transport) (p : Option Pass) : Keeps s (s.setPass t p) := .rest ..

theorem Keeps.setLine (s : State) (t : Transport) (l : Lines) : Keeps s (s.setLine t l) := .rest ..

theorem Keeps.setSlot (s : State) (n : Nat) (v : Slot) : Keeps s (s.setSlot n v) := .rest ..

theorem Keeps.ite {c : Prop} [Decidable c] {s a b : State} (ha : c → Keeps s a) (hb : ¬c → Keeps s b) :
    Keeps s (if c then a else b) := by
  split
  · rename_i h; exact ha h
  · rename_i h; exact hb h

/-! ### Notices and alerts -/

theorem Keeps.notify (p : Port) (n : Notice) (s : State) : Keeps s (notify p n s) :=
  ⟨rfl, rfl, rfl, rfl, rfl, rfl, rfl, rfl, rfl, (Notified.refl _).step p n, id, fun _ => .refl _, id⟩

theorem Keeps.notifyAll (n : Notice) (s : State) : Keeps s (notifyAll n s) := .foldl (fun s p => .notify p n s) _ s

/-- A change of the alerts that keeps the limits of the board. -/
theorem Keeps.setAlerts (s : State) (b : List Alert) (h : boardOk s.alerts → boardOk b) :
    Keeps s { s with alerts := b } :=
  ⟨rfl, rfl, rfl, rfl, rfl, rfl, rfl, rfl, rfl, .refl _, h, fun _ => .refl _, id⟩

theorem Keeps.raiseAlert (code : AlertCode) (reel : Option Nat) (place : Option AlertPlace) (s : State)
    (hf : code = .boardFull → reel = none) : Keeps s (raiseAlert code reel place s) := by
  have hb := fun h : boardOk s.alerts => raiseAlert_boardOk h code reel place hf
  rcases raiseAlert_cases s code reel place with ⟨_, e⟩ | ⟨_, _, e⟩ | ⟨_, _, _, e⟩ | ⟨_, _, _, e⟩ <;> rw [e] at hb ⊢
  · exact .setAlerts s _ hb
  · exact .setAlerts s _ hb
  · exact (Keeps.setAlerts s _ hb).trans (.notifyAll _ _)
  · exact (Keeps.setAlerts s _ hb).trans (.notifyAll _ _)

theorem Keeps.raiseIfAbsent (code : AlertCode) (reel : Option Nat) (s : State) (hf : code = .boardFull → reel = none) :
    Keeps s (raiseIfAbsent code reel s) := .ite (fun _ => .refl s) (fun _ => .raiseAlert _ _ _ s hf)

theorem Keeps.sweepConditions (s : State) : Keeps s (sweepConditions s) := by
  have hr : ∀ (code : AlertCode) (reel : Option Nat) (s : State), (code = .boardFull → reel = none) →
      Keeps s (Machine.raiseIfAbsent code reel s) := fun c r s h => .raiseIfAbsent c r s h
  unfold Machine.sweepConditions
  exact (((Keeps.foldl (fun s a => hr _ _ s (fun h => by cases h)) _ _).trans
    (Keeps.foldl (fun s a => hr _ _ s (fun h => by cases h)) _ _)).trans
    (.ite (fun _ => hr _ _ _ (fun _ => rfl)) (fun _ => .refl _))).trans
    (.ite (fun _ => hr _ _ _ (fun _ => rfl)) (fun _ => .refl _))

theorem Keeps.takeOffBoard (code : AlertCode) (reel : Option Nat) (by_ : Option Port) (s : State) :
    Keeps s (takeOffBoard code reel by_ s) := by
  unfold Machine.takeOffBoard
  split
  · exact .refl s
  · exact (Keeps.setAlerts s _ (fun h => boardOk_filter h _)).trans (.notifyAll _ _)

theorem Keeps.removeAlert (code : AlertCode) (reel : Option Nat) (by_ : Option Port) (s : State) :
    Keeps s (removeAlert code reel by_ s) := by
  refine .ite (fun _ => ?_) (fun _ => .refl s)
  refine (Keeps.takeOffBoard code reel by_ s).trans (.ite (fun _ => ?_) (fun _ => .refl _))
  exact (Keeps.takeOffBoard _ _ _ _).trans (.sweepConditions _)

theorem Keeps.testCondition (holds : Bool) (code : AlertCode) (s : State) : Keeps s (testCondition holds code s) :=
  .ite (fun _ => .raiseIfAbsent _ _ _ (fun _ => rfl)) (fun _ => .removeAlert _ _ _ _)

theorem Keeps.testDefectPool (s : State) : Keeps s (testDefectPool s) := .testCondition _ _ s

theorem Keeps.testScenePool (s : State) : Keeps s (testScenePool s) := .testCondition _ _ s

end Sys2Proof.Machine
end

