-- ==== Sys2Proof/Laws/KeepsReels.lean ====
section
/-! SUPPORT. What the operations of the defect register, of custody and of the shelf table keep. -/

namespace Sys2Proof.Machine

/-! ### The defect register -/

theorem Keeps.makeEntry {x : Detection} {i : Nat} {r : Reel} {s : State} {id : Nat}
    (h : s.findReel id = some (i, r)) : Keeps s (makeEntry x i r s).1 := by
  unfold Machine.makeEntry
  split
  · exact .refl s
  · split
    · exact .refl s
    · exact (Keeps.putFound h (.withDefects _ _)).trans (.testDefectPool _)

theorem Keeps.raiseDetection (x : Detection) (s : State) : Keeps s (raiseDetection x s).1 := by
  unfold Machine.raiseDetection
  split
  · exact .refl s
  · rename_i i r h
    split
    · exact .putFound h (.withDefects _ _)
    · split
      · dsimp only
        split
        · exact .putFound h (.withDefects _ _)
        · exact (Keeps.putFound h (.withDefects _ _)).trans (.raiseAlert _ _ _ _ (fun h => by cases h))
      · split
        · split
          · exact .putFound h (.withDefects _ _)
          · exact .makeEntry h
        · exact .makeEntry h

theorem Keeps.countRaised (t : Transport) (e : State × DetectOutcome) : Keeps e.1 (countRaised t e) := by
  unfold Machine.countRaised
  split
  · exact .setPass _ _ _
  · exact .refl _

theorem Keeps.raiseForPass (t : Transport) (reel f : Nat) (kind : DefectKind) (s : State) :
    Keeps s (raiseForPass t reel f kind s) := (Keeps.raiseDetection _ s).trans (.countRaised t _)

/-! ### Grants and timers -/

/-- A claim returned to OPEN is counted as it was, so the counts of a list stay true (R102, R107). -/
theorem counted_returnClaims (p : Port) (ds : List Defect) :
    countOpen (returnClaims p ds) = countOpen ds ∧ countBlocking (returnClaims p ds) = countBlocking ds := by
  have h : ∀ d : Defect, (if d.state = .claimed p then { d with state := .opened } else d).counted = d.counted ∧
      (if d.state = .claimed p then { d with state := .opened } else d).severity = d.severity := by
    intro d
    split
    · rename_i hd; simp [Defect.counted, hd]
    · exact ⟨rfl, rfl⟩
  constructor
  · simp only [countOpen, returnClaims, List.filter_map, List.length_map]
    congr 2; funext d; simp [h]
  · simp only [countBlocking, returnClaims, List.filter_map, List.length_map]
    congr 2; funext d; simp [h]

theorem ReelStep.returnClaims (p : Port) (r : Reel) (lapsed : Option Port) (c : Custody) :
    ReelStep r { r with defects := returnClaims p r.defects, lapsed := lapsed, custody := c } :=
  ⟨rfl, rfl, fun h hr => by
    obtain ⟨h1, h2⟩ := counted_returnClaims p r.defects
    exact ⟨(h hr).1.trans h1.symm, (h hr).2.trans h2.symm⟩⟩

theorem Keeps.leaveOtherQueues (p : Port) (i : Nat) (s : State) : Keeps s (leaveOtherQueues p i s) := by
  unfold Machine.leaveOtherQueues
  refine .foldl (fun s e => ?_) _ s
  exact .after (.notify _ _ _) (.modReel s _ (fun _ => .same rfl rfl rfl rfl rfl))

theorem Keeps.grant (byTable : Bool) (p : Port) (i : Nat) (s : State) : Keeps s (grant byTable p i s) := by
  unfold Machine.grant
  split
  · exact .refl s
  · rename_i r h
    have k := (Keeps.putReel h (b := r.grantedTo p s.settings.threading) (.same rfl rfl rfl rfl rfl)).trans
      (.leaveOtherQueues p i _)
    cases byTable
    · exact k
    · exact k.trans (.notify _ _ _)

theorem Keeps.makeReady (i : Nat) (s : State) : Keeps s (makeReady i s) := by
  unfold Machine.makeReady
  split
  · exact .refl s
  · rename_i r h
    have k := Keeps.putReel h (b := { r with custody := .ready }) (.same rfl rfl rfl rfl rfl)
    dsimp only
    split
    · exact k
    · exact k.trans (.grant _ _ _ _)

theorem Keeps.makeResting (i : Nat) (s : State) : Keeps s (makeResting i s) := by
  unfold Machine.makeResting
  split
  · exact .refl s
  · rename_i r h
    refine .ite (fun _ => ?_) (fun _ => .putReel h (.same rfl rfl rfl rfl rfl))
    exact .after (.makeReady _ _) (.putReel h (.same rfl rfl rfl rfl rfl))

theorem Keeps.dropQueue (i : Nat) (reason : DropReason) (s : State) : Keeps s (dropQueue i reason s) := by
  unfold Machine.dropQueue
  split
  · exact .refl s
  · rename_i r h
    exact .after (.foldl (fun s p => .notify p _ s) _ _) (.putReel h (.same rfl rfl rfl rfl rfl))

theorem Keeps.makeShelved (i : Nat) (s : State) : Keeps s (makeShelved i s) := by
  unfold Machine.makeShelved
  split
  · exact .refl s
  · rename_i r h
    have k1 := Keeps.putReel h (b := { r with
      custody := .shelved, rack := none, exposure := 0, exposureSeconds := 0, overexposed := false })
      (.same rfl rfl rfl rfl rfl)
    dsimp only
    refine Keeps.trans ?_ (.dropQueue _ _ _)
    refine Keeps.trans ?_ (.ite (fun _ => .removeAlert _ _ _ _) (fun _ => .refl _))
    refine Keeps.trans ?_ (.ite (fun _ => .removeAlert _ _ _ _) (fun _ => .refl _))
    split
    · exact k1.trans (.rest ..)
    · exact k1

theorem Keeps.makeFault (i : Nat) (dir : Direction) (s : State) : Keeps s (makeFault i dir s) := by
  unfold Machine.makeFault
  split
  · exact .refl s
  · rename_i r h
    exact .after (.raiseAlert _ _ _ _ (fun h => by cases h)) (.putReel h (.same rfl rfl rfl rfl rfl))

theorem Keeps.testExposure (i : Nat) (s : State) : Keeps s (testExposure i s) := by
  unfold Machine.testExposure
  split
  · exact .refl s
  · rename_i r h
    refine .ite (fun _ => ?_) (fun _ => .refl s)
    exact .after (.dropQueue _ _ _)
      (.after (.raiseAlert _ _ _ _ (fun h => by cases h)) (.putReel h (.same rfl rfl rfl rfl rfl)))

theorem Keeps.exposureMinute (i : Nat) (s : State) : Keeps s (exposureMinute i s) := by
  unfold Machine.exposureMinute
  split
  · exact .refl s
  · rename_i r h
    exact .ite (fun _ => .after (.testExposure _ _) (.putReel h (.same rfl rfl rfl rfl rfl))) (fun _ => .refl s)

theorem Keeps.restingExpiry (i : Nat) (s : State) : Keeps s (restingExpiry i s) := by
  unfold Machine.restingExpiry
  split
  · exact .refl s
  · split
    · exact .makeReady i s
    · exact .refl s

theorem Keeps.endCustody (i : Nat) (p : Port) (lapsed : Option Port) {before : State → State}
    (hb : ∀ s, Keeps s (before s)) (s : State) : Keeps s (endCustody i p lapsed before s) := by
  unfold Machine.endCustody
  split
  · exact .refl s
  · rename_i r h
    exact ((Keeps.putReel h (.returnClaims p r lapsed .ready)).trans (hb _)).trans (.makeReady _ _)

theorem Keeps.threadingExpiry (i : Nat) (s : State) : Keeps s (threadingExpiry i s) := by
  unfold Machine.threadingExpiry
  split
  · exact .refl s
  · split
    · exact .endCustody _ _ _ (fun s => .notify _ _ s) s
    · exact .refl s

theorem Keeps.onTimer (reel : Nat) {event : Nat → State → State} (h : ∀ i s, Keeps s (event i s)) (s : State) :
    Keeps s (onTimer reel event s) := by
  unfold Machine.onTimer
  split
  · split
    · exact h _ s
    · exact .refl s
  · exact .refl s

/-! ### Slots and orders -/

theorem Keeps.releaseSlot (n i : Nat) (s : State) : Keeps s (releaseSlot n i s) := by
  refine (Keeps.setSlot s n _).trans (.modReel _ _ (fun r => ?_))
  split
  · exact .same rfl rfl rfl rfl rfl
  · exact .refl r

theorem Keeps.vacateSlot (n i : Nat) (s : State) : Keeps s (vacateSlot n i s) := by
  unfold Machine.vacateSlot
  split
  · exact .refl s
  · exact .ite (fun _ => .setSlot _ _ _) (fun _ => .releaseSlot _ _ _)

theorem Keeps.occupySlot (n i : Nat) (s : State) : Keeps s (occupySlot n i s) := by
  unfold Machine.occupySlot
  split
  · exact .refl s
  · rename_i r h
    exact .after (.putReel (a := r) h (.same rfl rfl rfl rfl rfl)) (.setSlot s n _)

theorem Keeps.releaseOthers (n i : Nat) (s : State) : Keeps s (releaseOthers n i s) := by
  unfold Machine.releaseOthers
  split
  · exact .refl s
  · exact .foldl (fun s e => .releaseSlot _ _ s) _ s

theorem Keeps.issueOrder (i k : Nat) (dir : Direction) (source dest : Nat) (s : State) :
    Keeps s (issueOrder i k dir source dest s) := by
  unfold Machine.issueOrder
  split
  · exact .refl s
  · rename_i r h
    exact .after (.notify _ _ _) (.after (.rest (s.putReel i _) ..) (.putReel h (.same rfl rfl rfl rfl rfl)))

theorem Keeps.failOrder (i : Nat) (s : State) : Keeps s (failOrder i s) := by
  unfold Machine.failOrder
  split
  · exact .refl s
  · split
    · dsimp only
      split
      · exact .after (.makeFault i _ _) (.rest ..)
      · exact .after (.vacateSlot _ _ _) (.after (.makeFault i _ _) (.rest ..))
    · exact .refl s

theorem Keeps.removeOrder (i : Nat) (s : State) : Keeps s (removeOrder i s) := by
  unfold Machine.removeOrder
  split
  · exact .refl s
  · exact .rest ..

theorem Keeps.waitExpiry (i : Nat) (s : State) : Keeps s (waitExpiry i s) := by
  unfold Machine.waitExpiry
  split
  · exact .refl s
  · split
    · split
      · exact .refl s
      · exact .ite (fun _ => .after (.notify _ _ _) (.rest ..)) (fun _ => .failOrder _ _)
    · exact .refl s

theorem Keeps.outboundComplete (i n : Nat) (s : State) : Keeps s (outboundComplete i n s) :=
  ((Keeps.vacateSlot n i s).trans (.removeOrder _ _)).trans (.makeResting _ _)

theorem Keeps.inboundComplete (i n : Nat) (s : State) : Keeps s (inboundComplete i n s) :=
  (Keeps.occupySlot n i s).trans (.makeShelved _ _)

theorem Keeps.moveOnRack (i k : Nat) (s : State) : Keeps s (moveOnRack i k s) := by
  unfold Machine.moveOnRack
  split
  · exact .refl s
  · rename_i r h
    exact .ite (fun _ => .refl s) (fun _ => .after (.rest (s.putReel i _) ..) (.putReel h (.same rfl rfl rfl rfl rfl)))

theorem Keeps.checkSlotsBelow (limit : Nat) (s : State) : Keeps s (checkSlotsBelow limit s) := by
  refine .foldl (fun s n => ?_) _ s
  refine .ite (fun _ => .refl s) (fun _ => ?_)
  split
  · exact .setSlot _ _ _
  · exact .setSlot _ _ _
  · exact .refl s

theorem Keeps.checkSlots (s : State) : Keeps s (checkSlots s) := .checkSlotsBelow _ s

/-! ### Answers of the owners -/

/-- The state of a request that names a reel, whatever its owner keeps. -/
theorem Keeps.withReel (id : Nat) (s : State) (f : Nat → Reel → Answer)
    (h : ∀ i r, s.findReel id = some (i, r) → Keeps s (f i r).state) : Keeps s (withReel id s f).state := by
  unfold Machine.withReel
  split
  · exact .refl s
  · rename_i i r hr; exact h i r hr

theorem Keeps.withFreeReel (id : Nat) (s : State) (f : Nat → Reel → Answer)
    (h : ∀ i r, s.findReel id = some (i, r) → Keeps s (f i r).state) : Keeps s (withFreeReel id s f).state := by
  refine .withReel id s _ (fun i r hr => ?_)
  split
  · exact .refl s
  · exact h i r hr

theorem Keeps.answerIte {c : Prop} [Decidable c] {s : State} {a b : Answer} (ha : c → Keeps s a.state)
    (hb : ¬c → Keeps s b.state) : Keeps s (if c then a else b).state := by
  split
  · rename_i h; exact ha h
  · rename_i h; exact hb h

end Sys2Proof.Machine
end

