-- ==== Sys2Proof/Laws/KeepsPasses.lean ====
section
/-! SUPPORT. What the operations of the scene store, the registration units and the pass controller keep. -/

namespace Sys2Proof.Machine

/-! ### The scene store -/

theorem ClampNote.answer_state (c : ClampNote) (body : Bytes) (s : State) : (c.answer body s).state = s := by
  unfold ClampNote.answer; split <;> rfl

theorem Keeps.abandonFor (reel : Nat) (cause : AbandonCause) (s : State) : Keeps s (abandonFor reel cause s) := by
  unfold Machine.abandonFor
  split
  · exact .ite (fun _ => .after (.notify _ _ _) (.rest ..)) (fun _ => .refl s)
  · exact .refl s

theorem Keeps.commit {id i : Nat} {r : Reel} {batch : List Edit} {held : Option HeldEdits} {c : ClampNote} {s : State}
    (h : s.findReel id = some (i, r)) : Keeps s (commit i r batch held c s).state := by
  unfold Machine.commit
  dsimp only
  split
  · exact .refl s
  · split
    · exact .refl s
    · split
      · exact .refl s
      · rw [ClampNote.answer_state]
        refine .after (.ite (fun _ => .refl _) (fun _ => .testScenePool _)) ?_
        exact .after (.rest (s.putReel i _) ..) (.putFound h (.same rfl rfl rfl rfl rfl))

theorem Keeps.holdEdit (reel : Nat) (e : Edit) (c : ClampNote) (s : State) :
    Keeps s (holdEdit reel e c s).state := by
  unfold Machine.holdEdit
  split
  · rw [ClampNote.answer_state]; exact .rest ..
  · split
    · split
      · exact .refl s
      · rw [ClampNote.answer_state]; exact .rest ..
    · rw [ClampNote.answer_state]; exact .after (.rest ..) (.notify _ _ _)

theorem Keeps.editOwner (reel hold : Nat) (e : Edit) (c : ClampNote) (s : State) :
    Keeps s (editOwner reel hold e c s).state := by
  unfold Machine.editOwner
  split
  · exact .refl s
  · refine .withFreeReel _ _ _ (fun i r h => ?_)
    refine .answerIte (fun _ => .refl s) (fun _ => .answerIte (fun _ => .refl s) (fun _ =>
      .answerIte (fun _ => .refl s) (fun _ => .answerIte (fun _ => .holdEdit _ _ _ _) (fun _ => .commit h))))

theorem Keeps.abandonEdit (s : State) : Keeps s (abandonEditOwner s).state := by
  unfold Machine.abandonEditOwner
  split
  · exact .rest ..
  · exact .refl s

theorem Keeps.lockGrade (reel : Nat) (s : State) : Keeps s (lockGradeOwner reel s).state :=
  .withFreeReel _ _ _ (fun _ _ h => .answerIte (fun _ => .refl s) (fun _ => .answerIte (fun _ => .refl s)
    (fun _ => .putFound h (.same rfl rfl rfl rfl rfl))))

theorem Keeps.unlockGrade (reel : Nat) (s : State) : Keeps s (unlockGradeOwner reel s).state :=
  .withFreeReel _ _ _ (fun _ _ h => .answerIte (fun _ => .refl s)
    (fun _ => .putFound h (.same rfl rfl rfl rfl rfl)))

/-! ### The estimate -/

/-- A clamped estimate lies within the limits of its gauge (R47). -/
theorem clampPitch_mem (g : Gauge) (p : Int) : g.pitchMin ≤ clampPitch g p ∧ clampPitch g p ≤ g.pitchMax := by
  have : g.pitchMin ≤ g.pitchMax := by cases g <;> decide
  unfold clampPitch clampInt
  split <;> [skip; split] <;> omega

/-- The estimate of a unit at arming lies within the limits of the gauge of its reel (R47, R49). -/
theorem armedRun_pitch_mem (r : Reel) (f0 : Nat) :
    r.gauge.pitchMin ≤ (armedRun r f0).pitch ∧ (armedRun r f0).pitch ≤ r.gauge.pitchMax :=
  clampPitch_mem r.gauge _

/-! ### The registration units -/

theorem Keeps.updateRun (t : Transport) (f : UnitRun → UnitRun) (s : State) : Keeps s (updateRun t f s) :=
  .setUnit s t _ id

theorem Keeps.updatePass (t : Transport) (f : Pass → Pass) (s : State) : Keeps s (updatePass t f s) :=
  .setPass s t _

theorem Keeps.shrinkTest (t : Transport) (s : State) : Keeps s (shrinkTest t s) := by
  unfold Machine.shrinkTest
  split
  · exact .refl s
  · split
    · exact .refl s
    · rename_i h
      exact .ite (fun _ => .after (.raiseAlert _ _ _ _ (fun h => by cases h))
        (.putFound h (.same rfl rfl rfl rfl rfl))) (fun _ => .refl s)

theorem Keeps.finishPass (t : Transport) (reason : EndReason) (tail : Bool) (s : State) :
    Keeps s (finishPass t reason tail s) := by
  unfold Machine.finishPass
  dsimp only
  split
  · exact .setUnit _ _ _ id
  · exact .after (.notify _ _ _) (.after (.setPass _ _ _) (.setUnit _ _ _ id))

theorem Keeps.missFrame (t : Transport) (f : Nat) (s : State) : Keeps s (missFrame t f s) := by
  unfold Machine.missFrame
  dsimp only
  split
  · exact .updatePass _ _ _
  · exact .after (.raiseForPass _ _ _ _ _) (.updatePass _ _ _)

theorem Keeps.captureFrame (t : Transport) (f : Nat) (mark : Bool) (s : State) : Keeps s (captureFrame t f mark s) := by
  unfold Machine.captureFrame
  split
  · exact .refl s
  · exact .after (.setPass _ _ _) (.setLine _ _ _)

theorem Keeps.speedDrop (t : Transport) (s : State) : Keeps s (speedDrop t s) := by
  have h : Keeps s (s.setUnit t { s.unit t with setCode := (s.unit t).setCode - 1 }) :=
    .setUnit s t _ (fun h => Nat.le_trans (Nat.sub_le _ _) h)
  unfold Machine.speedDrop
  dsimp only
  split
  · exact h
  · exact .after (.updatePass _ _ _) (.after (.raiseAlert _ _ _ _ (fun h => by cases h)) h)

theorem Keeps.skipFrame (t : Transport) (f : Nat) (s : State) : Keeps s (skipFrame t f s) := by
  have h : Keeps s (Machine.updatePass t (fun p => { p with misses := p.misses + 1 }) (Machine.missFrame t f s)) :=
    .after (.updatePass _ _ _) (.missFrame _ _ _)
  unfold Machine.skipFrame
  dsimp only
  split
  · exact h
  · exact .ite (fun _ => .after (.speedDrop _ _) h) (fun _ => h)

theorem Keeps.decideCapture (t : Transport) (f : Nat) (e : EdgeReport) (s : State) :
    Keeps s (decideCapture t f e s) := by
  unfold Machine.decideCapture
  split
  · exact .refl s
  · dsimp only
    split
    · exact .after (.captureFrame _ _ _ _) (.updateRun _ _ _)
    · exact .ite (fun _ => .after (.captureFrame _ _ _ _) (.updateRun _ _ _))
        (fun _ => .after (.skipFrame _ _ _) (.after (.updatePass _ _ _) (.updateRun _ _ _)))

theorem Keeps.takeBoundary (t : Transport) (e : EdgeReport) (f : Nat) (c : Bool) (s : State) :
    Keeps s (takeBoundary t e f c s) := by
  unfold Machine.takeBoundary
  split
  · exact .refl s
  · refine .ite (fun _ => ?_) (fun _ => .refl s)
    have h := Keeps.after (.ite (c := c = true) (fun _ => .decideCapture t f e _) (fun _ => .missFrame t f _))
      (Keeps.updatePass t (fun p => { p with highest := some f }) s)
    exact .ite (fun _ => .after (.finishPass _ _ _ _) h) (fun _ => h)

theorem Keeps.reportBoundaries (t : Transport) (locked : Bool) (e : EdgeReport) (bs : List (Nat × Bool)) (s : State) :
    Keeps s (reportBoundaries t locked e bs s) := .foldl (fun s _ => .takeBoundary _ _ _ _ s) bs s

theorem Keeps.firstEdge (t : Transport) (time : Word32) (run : UnitRun) (s : State) :
    Keeps s (firstEdge t time run s) :=
  .after (.takeBoundary _ _ _ _ _) (.after (.updatePass _ _ _) (.setUnit _ _ _ id))

theorem Keeps.spuriousEdge (t : Transport) (run : UnitRun) (s : State) : Keeps s (spuriousEdge t run s) := by
  have h := Keeps.after (.updatePass t (fun p => { p with spurious := satSucc 65535 p.spurious }) _)
    (Keeps.updateRun t (fun r => { r with spurious := satSucc 255 run.spurious }) s)
  exact .ite (fun _ => .after (.raiseForPass _ _ _ _ _) (.after (.updateRun _ _ _) h)) (fun _ => h)

theorem Keeps.exhaustNumbering (t : Transport) (s : State) : Keeps s (exhaustNumbering t s) :=
  .after (.updatePass _ _ _) (.updateRun _ _ _)

theorem Keeps.acceptEdge (t : Transport) (time : Word32) (advance : Nat) (s : State) :
    Keeps s (acceptEdge t time advance s) := .updateRun _ _ _

theorem Keeps.normalEdge (t : Transport) (run : UnitRun) (m16 : Nat) (e : EdgeReport) (s : State) :
    Keeps s (normalEdge t run m16 e s) := by
  unfold Machine.normalEdge
  exact .after (.reportBoundaries _ _ _ _ _)
    (.ite (fun _ => .updateRun _ _ _) (fun _ => .after (.shrinkTest _ _) (.updateRun _ _ _)))

theorem Keeps.missingEdge (t : Transport) (run : UnitRun) (e : EdgeReport) (s : State) :
    Keeps s (missingEdge t run e s) := .after (.reportBoundaries _ _ _ _ _) (.raiseForPass _ _ _ _ _)

theorem Keeps.breakEdge (t : Transport) (run : UnitRun) (e : EdgeReport) (s : State) :
    Keeps s (breakEdge t run e s) := by
  unfold Machine.breakEdge
  exact .after (.reportBoundaries _ _ _ _ _)
    (.ite (fun _ => .setUnit _ _ _ id) (fun _ => .after (.raiseForPass _ _ _ _ _) (.setUnit _ _ _ id)))

theorem Keeps.giveUp (t : Transport) (run : UnitRun) (s : State) : Keeps s (giveUp t run s) :=
  .after (.raiseAlert _ _ _ _ (fun h => by cases h)) (.finishPass _ _ _ _)

theorem Keeps.reacquireEdge (t : Transport) (run : UnitRun) (m16 : Nat) (e : EdgeReport) (s : State) :
    Keeps s (reacquireEdge t run m16 e s) := by
  unfold Machine.reacquireEdge
  dsimp only
  refine .ite (fun _ => .after (.giveUp _ _ _) ?_) (fun _ => ?_) <;>
    exact .after (.reportBoundaries _ _ _ _ _) (.setUnit _ _ _ id)

theorem Keeps.measuredEdge (t : Transport) (time : Word32) (run : UnitRun) (k : Track) (s : State) :
    Keeps s (measuredEdge t time run k s) := by
  unfold Machine.measuredEdge
  dsimp only
  refine .ite (fun _ => .spuriousEdge _ _ _) (fun _ => .ite (fun _ => .exhaustNumbering _ _) (fun _ => ?_))
  split
  · exact .after (.normalEdge _ _ _ _ _) (.acceptEdge _ _ _ _)
  · exact .after (.missingEdge _ _ _ _) (.acceptEdge _ _ _ _)
  · exact .after (.breakEdge _ _ _ _) (.acceptEdge _ _ _ _)
  · exact .after (.reacquireEdge _ _ _ _ _) (.acceptEdge _ _ _ _)

theorem Keeps.forwardEdge (t : Transport) (time : Word32) (s : State) : Keeps s (forwardEdge t time s) := by
  unfold Machine.forwardEdge
  split
  · exact .refl s
  · exact .refl s
  · exact .firstEdge _ _ _ _
  · split
    · exact .refl s
    · exact .ite (fun _ => .refl s) (fun _ => .measuredEdge _ _ _ _ _)

theorem Keeps.perfEdge (t : Transport) (time : Word32) (dir : Sense) (s : State) : Keeps s (perfEdge t time dir s) := by
  have h : Keeps s (({ s with timestamp := time } : State).setLine t { s.line t with dirLine := dir }) :=
    .after (.setLine _ _ _) (.rest ..)
  unfold Machine.perfEdge
  dsimp only
  split
  · exact .after (.forwardEdge _ _ _) h
  · exact h

theorem Keeps.encoderStep (t : Transport) (sense : Sense) (s : State) : Keeps s (encoderStep t sense s) := by
  unfold Machine.encoderStep
  split
  · exact .setUnit _ _ _ id
  · exact .refl s

theorem Keeps.breakAsserted (t : Transport) (s : State) : Keeps s (breakAsserted t s) := by
  have h : Keeps s (s.setLine t { s.line t with breakLine := true }) := .setLine _ _ _
  unfold Machine.breakAsserted
  dsimp only
  split
  · refine .after (.raiseAlert _ _ _ _ (fun h => by cases h)) ?_
    split
    · exact .after (.finishPass _ _ _ _) (.after (.raiseForPass _ _ _ _ _) (.after (.setUnit _ _ _ id) h))
    · exact .after (.setUnit _ _ _ id) h
  · exact h

theorem Keeps.reverseEdge (t : Transport) (s : State) : Keeps s (reverseEdge t s) := by
  have h : Keeps s (s.setLine t { s.line t with dirLine := .reverse }) := .setLine _ _ _
  unfold Machine.reverseEdge
  dsimp only
  split
  · exact .ite (fun _ => .after (.finishPass _ _ _ _) h) (fun _ => h)
  · exact h

theorem Keeps.onTransport (p : Port) (s : State) (f : Transport → Answer) (h : ∀ t, Keeps s (f t).state) :
    Keeps s (onTransport p s f).state := by
  unfold Machine.onTransport
  split
  · exact h _
  · exact .refl s

theorem Keeps.setSpeed (p : Port) (code : Nat) (s : State) : Keeps s (setSpeedOwner p code s).state :=
  .onTransport _ _ _ (fun t => .setUnit s t _ (fun _ => Nat.min_le_left 7 code))

theorem Keeps.clearBreak (p : Port) (now : Bool) (s : State) : Keeps s (clearBreakOwner p now s).state := by
  refine .onTransport _ _ _ (fun t => ?_)
  have h : Keeps s (s.setLine t { s.line t with breakLine := now }) := .setLine _ _ _
  exact .answerIte (fun _ => h) (fun _ => .after (.setUnit _ _ _ id) h)

/-! ### The pass controller -/

theorem Keeps.startPass {t : Transport} {kind : PassKind} {i : Nat} {r : Reel} {f0 : Nat} {e : Option Nat}
    {s : State} (h : ∃ p : Port, s.heldBy p = some (i, r)) : Keeps s (startPass t kind i r f0 e s) := by
  obtain ⟨p, h⟩ := h
  have k : Keeps s (s.putReel i { r with passNumber := satSucc 65535 r.passNumber }) := by
    have key : tableOrdered s.reels → Keeps s (s.putReel i { r with passNumber := satSucc 65535 r.passNumber }) :=
      fun ho => .putReel (tableGet_of_mem ho (List.mem_of_find?_eq_some h)) (.same rfl rfl rfl rfl rfl)
    exact ⟨rfl, rfl, rfl, rfl, rfl, rfl, rfl, rfl, rfl, .refl _, fun x => x, fun ho => (key ho).reels ho, fun x => x⟩
  exact .after (.shrinkTest _ _) (.after (.setUnit _ _ _ id) (.after (.setPass _ _ _) k))

theorem Keeps.startPassOwner (p : Port) (kind f0 e : Nat) (s : State) :
    Keeps s (startPassOwner p kind f0 e s).state := by
  unfold Machine.startPassOwner
  split
  · exact .refl s
  · refine .onTransport _ _ _ (fun t => ?_)
    dsimp only
    split
    · exact .refl s
    · exact .refl s
    · rename_i h; exact .startPass ⟨p, h⟩

theorem Keeps.endPass (p : Port) (tail : Nat) (s : State) : Keeps s (endPassOwner p tail s).state := by
  unfold Machine.endPassOwner
  split
  · exact .refl s
  · refine .onTransport _ _ _ (fun t => ?_)
    split
    · exact .refl s
    · exact .answerIte (fun _ => .finishPass _ _ _ _) (fun _ => .refl s)

theorem Keeps.writeFigures (t : Transport) (s : State) : Keeps s (writeFigures t s) := by
  unfold Machine.writeFigures
  split
  · exact .refl s
  · refine .ite (fun _ => .refl s) (fun _ => ?_)
    split
    · exact .refl s
    · rename_i h; exact .putFound h (.same rfl rfl rfl rfl rfl)

theorem findReel_raiseAlert (code : AlertCode) (reel : Option Nat) (place : Option AlertPlace) (s : State) (id : Nat) :
    (raiseAlert code reel place s).findReel id = s.findReel id := by
  rcases raiseAlert_cases s code reel place with ⟨_, e⟩ | ⟨_, _, e⟩ | ⟨_, _, _, e⟩ | ⟨_, _, _, e⟩ <;>
    rw [e] <;> rfl

theorem Keeps.inspectClose (t : Transport) (p : Pass) (s : State) : Keeps s (inspectClose t p s) := by
  unfold Machine.inspectClose
  split
  · exact .refl s
  · rename_i i r h
    dsimp only
    split
    · exact .putFound h (.same rfl rfl rfl rfl rfl)
    · refine .ite (fun _ => ?_) (fun _ => .putFound h (.same rfl rfl rfl rfl rfl))
      exact .after (.putFound ((findReel_raiseAlert _ _ _ _ _).trans h) (.same rfl rfl rfl rfl rfl))
        (.raiseAlert _ _ _ _ (fun h => by cases h))

theorem Keeps.completeClose (t : Transport) (p : Pass) (s : State) : Keeps s (completeClose t p s) := by
  unfold Machine.completeClose
  refine .after (.setPass _ _ _) (.after (.setUnit _ _ _ id) (.ite (fun _ => ?_) (fun _ => .refl s)))
  split
  · rename_i h; exact .putFound h (.same rfl rfl rfl rfl rfl)
  · exact .refl s

theorem Keeps.verifyStretch (t : Transport) (p : Pass) (n : Option Nat) (s : State) :
    Keeps s (verifyStretch t p n s) := by
  unfold Machine.verifyStretch
  split
  · exact .completeClose _ _ _
  · rename_i h
    refine .ite (fun _ => .after (.notify _ _ _) (.after (.completeClose _ _ _) ?_)) (fun _ => .after (.setPass _ _ _) ?_)
    · exact .putFound h (.withDefects _ _)
    · exact .putFound h (.withDefects _ _)

theorem Keeps.closeEnded (t : Transport) (p : Pass) (s : State) : Keeps s (closeEnded t p s).state := by
  unfold Machine.closeEnded
  refine .answerIte (fun _ => ?_) (fun _ => .after (.completeClose _ _ _) (.writeFigures _ _))
  have h : Keeps s ((Machine.inspectClose t p (Machine.writeFigures t s)).setPass t (some { p with state := .closing, walked := 0, verified := 0 })) :=
    .after (.setPass _ _ _) (.after (.inspectClose _ _ _) (.writeFigures _ _))
  exact .ite (fun _ => .after (.verifyStretch _ _ _ _) h) (fun _ => h)

theorem Keeps.closePass (p : Port) (s : State) : Keeps s (closePassOwner p s).state := by
  refine .onTransport _ _ _ (fun t => ?_)
  split
  · exact .refl s
  · split
    · exact .refl s
    · exact .refl s
    · exact .refl s
    · exact .closeEnded _ _ _

theorem Keeps.verificationWalk (w : WalkRun) (s : State) : Keeps s (verificationWalk w s) := by
  unfold Machine.verificationWalk
  split
  · exact .ite (fun _ => .verifyStretch _ _ _ _) (fun _ => .refl s)
  · exact .refl s

end Sys2Proof.Machine
end

