-- ==== Sys2Proof/Laws/KeepsRequests.lean ====
section
/-! SUPPORT. What the owners of the requests keep, and one second of the part's clock. -/

namespace Sys2Proof.Machine

/-! ### Custody -/

theorem Keeps.joinQueue {id i : Nat} {r : Reel} (p : Port) {s : State} (h : s.findReel id = some (i, r)) :
    Keeps s (joinQueue p i r s).state :=
  .answerIte (fun _ => .refl s) (fun _ => .answerIte (fun _ => .refl s)
    (fun _ => .putFound h (.same rfl rfl rfl rfl rfl)))

theorem Keeps.take (p : Port) (reel : Nat) (s : State) : Keeps s (takeOwner p reel s).state := by
  refine .withFreeReel _ _ _ (fun i r h => .answerIte (fun _ => .refl s) (fun _ => .answerIte (fun _ => .refl s)
    (fun _ => .answerIte (fun _ => .refl s) (fun _ => ?_))))
  split
  · exact .refl s
  · exact .refl s
  · exact .refl s
  · exact .grant _ _ _ _
  all_goals exact .joinQueue p h

theorem Keeps.withdraw (p : Port) (reel : Nat) (s : State) : Keeps s (withdrawOwner p reel s).state :=
  .withFreeReel _ _ _ (fun _ _ h => .answerIte (fun _ => .putFound h (.same rfl rfl rfl rfl rfl))
    (fun _ => .refl s))

theorem Keeps.asHolder {p : Port} {r : Reel} {s : State} {f : Answer} (h : Keeps s f.state) :
    Keeps s (asHolder p r s f).state :=
  .answerIte (fun _ => h) (fun _ => .answerIte (fun _ => .refl s) (fun _ => .refl s))

theorem Keeps.mounted (p : Port) (reel : Nat) (s : State) : Keeps s (mountedOwner p reel s).state :=
  .withFreeReel _ _ _ (fun _ _ h => .asHolder (.putFound h (.same rfl rfl rfl rfl rfl)))

theorem Keeps.release (p : Port) (reel : Nat) (s : State) : Keeps s (releaseOwner p reel s).state :=
  .withFreeReel _ _ _ (fun _ _ _ => .asHolder (.answerIte (fun _ => .refl s)
    (fun _ => .endCustody _ _ _ (fun s => .refl s) s)))

/-! ### Shelves -/

theorem Keeps.recallReel (reel : Nat) (s : State) : Keeps s (recallOwner reel s).state := by
  refine .withFreeReel _ _ _ (fun i r h => ?_)
  split
  · split
    · exact .refl s
    · rename_i k _
      refine .after (.issueOrder _ _ _ _ _ _) ?_
      exact Keeps.trans (t := { s with rack := tablePut s.rack k r.id }) (.rest ..)
        (.putFound (id := reel) h (.same rfl rfl rfl rfl rfl))
  · exact .refl s

theorem Keeps.returnReel (p : Port) (reel : Nat) (s : State) : Keeps s (returnOwner p reel s).state := by
  refine .withFreeReel _ _ _ (fun i r h => .answerIte (fun _ => .refl s) (fun _ => ?_))
  split
  · split
    · exact .raiseAlert _ _ _ _ (fun h => by cases h)
    · rename_i n _
      refine .after (.issueOrder _ _ _ _ _ _) ?_
      exact Keeps.trans (t := s.setSlot n (.reserved r.id)) (.setSlot _ _ _)
        (.putFound (id := reel) h (.same rfl rfl rfl rfl rfl))
  · exact .refl s

theorem Keeps.withOrder (reel order : Nat) (s : State) (f : Nat → Reel → MoveOrder → Answer)
    (h : ∀ i r o, Keeps s (f i r o).state) : Keeps s (withOrder reel order s f).state := by
  refine .withFreeReel _ _ _ (fun i r _ => .answerIte (fun _ => .refl s) (fun _ => .answerIte (fun _ => .refl s)
    (fun _ => ?_)))
  split
  · exact .refl s
  · exact h _ _ _

theorem Keeps.moveDone (reel order : Nat) (s : State) : Keeps s (moveDoneOwner reel order s).state := by
  refine .withOrder _ _ _ _ (fun i r o => ?_)
  split
  · exact .outboundComplete _ _ _
  · exact .inboundComplete _ _ _
  · exact .after (.removeAlert _ _ _ _) (.outboundComplete _ _ _)
  · exact .answerIte (fun _ => .after (.inboundComplete _ _ _) (.releaseOthers _ _ _)) (fun _ => .refl s)
  · exact .refl s

theorem Keeps.moveFailed (reel order : Nat) (s : State) : Keeps s (moveFailedOwner reel order s).state := by
  refine .withOrder _ _ _ _ (fun i r o => ?_)
  split
  · exact .failOrder _ _
  · exact .failOrder _ _
  · exact .refl s

theorem Keeps.locate (reel kind place : Nat) (s : State) : Keeps s (locateOwner reel kind place s).state := by
  refine .withFreeReel _ _ _ (fun i r _ => ?_)
  split
  · exact .refl s
  · split
    · exact .answerIte (fun _ => .refl s) (fun _ => .answerIte
        (fun _ => .after (.inboundComplete _ _ _) (.releaseOthers _ _ _)) (fun _ => .refl s))
    · refine .answerIte (fun _ => .refl s) (fun _ => .answerIte (fun _ => .refl s) (fun _ => ?_))
      refine .after (.removeAlert _ _ _ _) ?_
      split
      · exact .after (.makeResting _ _) (.after (.vacateSlot _ _ _) (.after (.moveOnRack _ _ _) (.removeOrder _ _)))
      · exact .after (.makeReady _ _) (.after (.moveOnRack _ _ _) (.removeOrder _ _))
    · exact .refl s

theorem Keeps.slotReport (slot content reel : Nat) (s : State) : Keeps s (slotReportOwner slot content reel s).state := by
  unfold slotReportOwner
  split
  · exact .refl s
  · refine .answerIte (fun _ => .refl s) (fun _ => ?_)
    split
    · exact .refl s
    · exact .refl s
    · exact .refl s
    · refine .answerIte (fun _ => .refl s) (fun _ => .answerIte (fun _ => .refl s) (fun _ => ?_))
      split
      · exact .setSlot _ _ _
      · exact .setSlot _ _ _

theorem Keeps.blockSlot (slot : Nat) (s : State) : Keeps s (blockSlotOwner slot s).state := by
  refine .answerIte (fun _ => .refl s) (fun _ => ?_)
  split
  · exact .setSlot _ _ _
  · exact .setSlot _ _ _
  · exact .refl s
  · exact .refl s

theorem Keeps.unblockSlot (slot : Nat) (s : State) : Keeps s (unblockSlotOwner slot s).state :=
  .answerIte (fun _ => .refl s) (fun _ => .answerIte (fun _ => .setSlot _ _ _) (fun _ => .refl s))

/-! ### Defects -/

theorem Keeps.detectionAnswer (x : Detection) {count : State × DetectOutcome → State}
    (hc : ∀ e, Keeps e.1 (count e)) (s : State) : Keeps s (detectionAnswer x count s).state := by
  unfold Machine.detectionAnswer
  split
  · exact .refl s
  · exact .after (hc _) (.raiseDetection x s)

theorem Keeps.countReport (p : Port) (reel : Nat) (s : State) (e : State × DetectOutcome) :
    Keeps e.1 (countReport p reel s e) := by
  unfold Machine.countReport
  split
  · exact .countRaised _ e
  · exact .refl _

theorem Keeps.reportDefect (p : Port) (reel f span kind severity given note : Nat) (s : State) :
    Keeps s (reportDefectOwner p reel f span kind severity given note s).state := by
  unfold reportDefectOwner
  split
  · exact .withFreeReel _ _ _ (fun i r _ => .answerIte (fun _ => .refl s) (fun _ => .answerIte (fun _ => .refl s)
      (fun _ => .answerIte (fun _ => .refl s) (fun _ => .answerIte (fun _ => .refl s)
        (fun _ => .detectionAnswer _ (fun e => .countReport _ _ _ e) _)))))
  · exact .refl s

theorem Keeps.markSplice (p : Port) (reel f : Nat) (s : State) : Keeps s (markSpliceOwner p reel f s).state :=
  .withFreeReel _ _ _ (fun _ _ _ => .answerIte (fun _ => .refl s) (fun _ => .answerIte (fun _ => .refl s)
    (fun _ => .detectionAnswer _ (fun e => .refl e.1) _)))

/-- The entry that a number names stands on the list of the record in its place. -/
theorem findEntry_mem {s : State} {n i : Nat} {r : Reel} {d : Defect} (h : s.findEntry n = some (i, r, d)) :
    (i, r) ∈ s.reels ∧ d ∈ r.defects ∧ d.number = n := by
  unfold State.findEntry at h
  obtain ⟨e, he, hf⟩ := List.exists_of_findSome?_eq_some h
  rcases hd : e.2.defects.find? (fun d => decide (d.number = n)) with _ | d'
  · simp [hd] at hf
  · simp only [hd, Option.map_some, Option.some.injEq, Prod.mk.injEq] at hf
    obtain ⟨rfl, rfl, rfl⟩ := hf
    exact ⟨he, List.mem_of_find?_eq_some hd, by simpa using List.find?_some hd⟩

theorem Keeps.putMem {s : State} {i : Nat} {a b : Reel} (ha : (i, a) ∈ s.reels) (h : ReelStep a b) :
    Keeps s (s.putReel i b) := by
  have key : tableOrdered s.reels → Keeps s (s.putReel i b) := fun ho => .putReel (tableGet_of_mem ho ha) h
  exact ⟨rfl, rfl, rfl, rfl, rfl, rfl, rfl, rfl, rfl, .refl _, fun x => x, fun ho => (key ho).reels ho, fun x => x⟩

theorem Keeps.withEntry (n : Nat) (s : State) (f : Nat → Reel → Defect → Answer)
    (h : ∀ i r d, s.findEntry n = some (i, r, d) → Keeps s (f i r d).state) : Keeps s (withEntry n s f).state := by
  refine .answerIte (fun _ => .refl s) (fun _ => ?_)
  split
  · exact .refl s
  · rename_i hd
    exact .answerIte (fun _ => .refl s) (fun _ => h _ _ _ hd)

theorem Keeps.entryTo {n m i : Nat} {r : Reel} {d : Defect} {s : State} (v : DefectState)
    (h : s.findEntry m = some (i, r, d)) : Keeps s (entryTo n v i r s).state :=
  .putMem (findEntry_mem h).1 (.withDefects _ _)

theorem Keeps.claim (p : Port) (n : Nat) (s : State) : Keeps s (claimOwner p n s).state :=
  .withEntry _ _ _ (fun _ _ _ h => .answerIte (fun _ => .refl s)
    (fun _ => .answerIte (fun _ => .entryTo _ h) (fun _ => .refl s)))

theorem Keeps.endClaim (p : Port) (n : Nat) (v : DefectState) (s : State) : Keeps s (endClaim p n v s).state := by
  refine .withEntry _ _ _ (fun _ _ _ h => ?_)
  split
  · exact .answerIte (fun _ => .entryTo _ h) (fun _ => .refl s)
  · exact .refl s

theorem Keeps.defer (n : Nat) (s : State) : Keeps s (deferOwner n s).state :=
  .withEntry _ _ _ (fun _ _ _ h => .answerIte (fun _ => .entryTo _ h) (fun _ => .refl s))

/-- Entries that are VERIFIED or REMOVED do not count (R102). -/
theorem counted_purge (ds : List Defect) :
    countOpen (ds.filter (fun d => !d.finished)) = countOpen ds ∧
      countBlocking (ds.filter (fun d => !d.finished)) = countBlocking ds := by
  have h : ∀ d : Defect, d.counted = true → d.finished = false := by
    intro d hd
    unfold Defect.counted at hd
    unfold Defect.finished
    split at hd <;> simp_all
  constructor
  · simp only [countOpen, List.filter_filter]
    congr 1
    refine List.filter_congr (fun d _ => ?_)
    by_cases hd : d.counted = true <;> simp [hd, h d]
  · simp only [countBlocking, List.filter_filter]
    congr 1
    refine List.filter_congr (fun d _ => ?_)
    by_cases hd : d.counted = true <;> simp [hd, h d]

theorem Keeps.purgeVerified (reel : Nat) (s : State) : Keeps s (purgeVerifiedOwner reel s).state := by
  refine .withFreeReel _ _ _ (fun i r h => .answerIte (fun _ => .refl s) (fun _ => .ite (fun _ => .refl s) (fun _ => ?_)))
  refine .after (.testDefectPool _) (.putFound h ⟨rfl, rfl, fun hc hr => ?_⟩)
  obtain ⟨h1, h2⟩ := counted_purge r.defects
  exact ⟨(hc hr).1.trans h1.symm, (hc hr).2.trans h2.symm⟩

/-! ### The clock -/

theorem Keeps.advanceMinute (s : State) : Keeps s (advanceMinute s) := by
  unfold Machine.advanceMinute
  split
  · exact .rest ..
  · exact .refl s

theorem Keeps.exposureSecond (i : Nat) (s : State) : Keeps s (exposureSecond i s) := by
  unfold Machine.exposureSecond
  split
  · exact .refl s
  · rename_i r h
    exact .ite (fun _ => .ite (fun _ => .putReel h (.same rfl rfl rfl rfl rfl)) (fun _ => .exposureMinute _ _))
      (fun _ => .refl s)

theorem Keeps.timerSecond (i : Nat) (s : State) : Keeps s (timerSecond i s) := by
  unfold Machine.timerSecond
  split
  · exact .refl s
  · rename_i r h
    split
    · exact .ite (fun _ => .restingExpiry _ _) (fun _ => .putReel h (.same rfl rfl rfl rfl rfl))
    · exact .ite (fun _ => .threadingExpiry _ _) (fun _ => .putReel h (.same rfl rfl rfl rfl rfl))
    · exact .refl s

theorem Keeps.waitSecond (k : Nat) (s : State) : Keeps s (waitSecond k s) := by
  unfold Machine.waitSecond
  split
  · exact .refl s
  · split
    · exact .refl s
    · refine .ite (fun _ => ?_) (fun _ => .rest ..)
      split
      · exact .waitExpiry _ _
      · exact .refl s

theorem Keeps.minuteSecond (s : State) : Keeps s (minuteSecond s) :=
  .ite (fun _ => .rest ..) (fun _ => .advanceMinute s)

theorem Keeps.tick (s : State) : Keeps s (tick s) := by
  unfold Machine.tick
  split
  · refine Keeps.after (t := List.foldl _ _ _) (.rest ..) ?_
    refine .after (.foldl (fun s _ => .waitSecond _ s) _ _) ?_
    refine .after (.foldl (fun s _ => .after (.timerSecond _ _) (.exposureSecond _ s)) _ _) ?_
    exact .after (.minuteSecond _) (.rest ..)
  · exact .refl s

end Sys2Proof.Machine
end

