-- ==== Sys2Proof/Laws/Custody.lean ====
section
/-! SUPPORT. What a grant, a change into READY or RESTING and the end of a custody do, in the terms of Safety.lean. -/

namespace Sys2Proof.Machine

/-- A port gone from the queue. -/
def Reel.without (p : Port) (r : Reel) : Reel := { r with waiters := r.waiters.filter (fun q => q ≠ p) }

theorem Reel.without_without (p : Port) (r : Reel) : (r.without p).without p = r.without p := by
  simp [Reel.without]

theorem Reel.without_of_not_mem {p : Port} {r : Reel} (h : p ∉ r.waiters) : r.without p = r := by
  have : r.waiters.filter (fun q => decide (q ≠ p)) = r.waiters := by
    rw [List.filter_eq_self]
    intro q hq
    simp only [decide_eq_true_eq, ne_eq]
    rintro rfl
    exact h hq
  unfold Reel.without
  rw [this]

/-- Leaving the queues of a row of places changes the records of those places and places one notice for each. -/
theorem leave_foldl (p : Port) (L : Table Reel) (s : State) :
    L.foldl (fun s e => notify p (.queueDropped e.2.id .grantedOther)
        (s.modReel e.1 (fun r => { r with waiters := r.waiters.filter (fun q => q ≠ p) }))) s =
      { s with
        reels := s.reels.map (fun e => if e.1 ∈ L.map (·.1) then (e.1, e.2.without p) else e)
        ports := L.foldl (fun ports e => addNotice p (.queueDropped e.2.id .grantedOther) ports) s.ports } := by
  induction L generalizing s with
  | nil => simp
  | cons a L ih =>
    rw [List.foldl_cons, ih]
    simp only [notify_eq, State.modReel, tableModify, List.map_map, List.foldl_cons, List.map_cons, List.mem_cons]
    congr 1
    refine List.map_congr_left (fun e _ => ?_)
    by_cases h1 : e.1 = a.1 <;> by_cases h2 : e.1 ∈ L.map (·.1)
    · simp [h1]
      rw [← h1]
      simp only [List.mem_map] at h2
      simp [Reel.without]
    · have h2' := h2
      simp only [h1] at h2'
      simp [h1, h2', Reel.without]
    · simp [h1, h2]
    · simp [h1, h2]

/-- The granted port leaves every other queue, with a notice for each (R12). -/
theorem leaveOtherQueues_eq (p : Port) (i : Nat) (s : State) : leaveOtherQueues p i s =
    { s with
      reels := s.reels.map (fun e => if e.1 = i then e else (e.1, e.2.without p))
      ports := portsLeaving p i s.reels s.ports } := by
  rw [leaveOtherQueues, leave_foldl]
  congr 1
  refine List.map_congr_left (fun e he => ?_)
  by_cases hi : e.1 = i
  · have : e.1 ∉ (s.reels.filter (fun e => e.1 ≠ i && e.2.waiters.contains p)).map (·.1) := by
      simp only [List.mem_map, List.mem_filter, not_exists, not_and]
      rintro x ⟨_, hx⟩ hxe
      simp [hxe, hi] at hx
    rw [if_neg this, if_pos hi]
  · rw [if_neg hi]
    by_cases hp : p ∈ e.2.waiters
    · have : e.1 ∈ (s.reels.filter (fun e => e.1 ≠ i && e.2.waiters.contains p)).map (·.1) :=
        List.mem_map.2 ⟨e, List.mem_filter.2 ⟨he, by simp [hi, hp]⟩, rfl⟩
      rw [if_pos this]
    · rw [Reel.without_of_not_mem hp]
      split <;> rfl

theorem portsLeaving_put (p : Port) {i : Nat} {reels : Table Reel} {a : Reel} (r : Reel) (ports : PerPort PortState)
    (ho : tableOrdered reels) (ha : tableGet reels i = some a) :
    portsLeaving p i (tablePut reels i r) ports = portsLeaving p i reels ports := by
  unfold portsLeaving
  congr 1
  rw [tablePut_eq_map r ho ha, List.filter_map]
  have hf : (fun e : Nat × Reel => e.1 ≠ i && e.2.waiters.contains p) ∘ (fun e => if e.1 = i then (i, r) else e) =
      fun e => e.1 ≠ i && e.2.waiters.contains p := by
    funext e
    by_cases h : e.1 = i <;> simp [h]
  rw [hf]
  conv_rhs => rw [← List.map_id (List.filter _ _)]
  refine List.map_congr_left (fun e he => ?_)
  have := (List.mem_filter.1 he).2
  by_cases h : e.1 = i
  · simp [h] at this
  · simp [h]

/-- A grant made by TAKE (R12). -/
theorem grant_eq {s : State} {i : Nat} {a : Reel} (p : Port) (ho : tableOrdered s.reels) (ha : s.reelAt i = some a) :
    grant false p i s = s.granting p i a := by
  simp only [grant, ha, leaveOtherQueues_eq, State.putReel, portsLeaving_put p _ _ ho ha, State.granting, reelsGranted]
  rw [tablePut_eq_map _ ho ha, List.map_map]
  simp only [Bool.false_eq_true, ↓reduceIte]
  congr 1
  refine List.map_congr_left (fun e _ => ?_)
  by_cases h : e.1 = i
  · simp [h, Reel.grantedTo]
  · simp [h, Reel.without]

/-- A grant made by the reel table (R12). -/
theorem grant_table_eq {s : State} {i : Nat} {a : Reel} (p : Port) (ho : tableOrdered s.reels)
    (ha : s.reelAt i = some a) : grant true p i s =
      { s.granting p i a with
        ports := addNotice p (.granted a.id s.settings.threading) (portsLeaving p i s.reels s.ports) } := by
  have h := grant_eq p ho ha
  simp only [grant, ha, Bool.false_eq_true, ↓reduceIte] at h ⊢
  rw [h, notify_eq]
  rfl

theorem reelsGranted_put (p : Port) {i : Nat} {reels : Table Reel} {a : Reel} (r b : Reel)
    (ho : tableOrdered reels) (ha : tableGet reels i = some a) :
    reelsGranted p i b (tablePut reels i r) = reelsGranted p i b reels := by
  unfold reelsGranted
  rw [tablePut_eq_map r ho ha, List.map_map]
  refine List.map_congr_left (fun e _ => ?_)
  by_cases h : e.1 = i <;> simp [h]

/-- A record filled in before its reel becomes READY is the record that becomes READY. -/
theorem State.readied_put {s : State} {i : Nat} {a : Reel} (b r : Reel) (ho : tableOrdered s.reels)
    (ha : s.reelAt i = some a) : (s.putReel i b).readied i r = s.readied i r := by
  unfold State.readied State.granting
  simp only [State.putReel_settings, State.putReel_reels, State.putReel_ports]
  rcases r.waiters with _ | ⟨p, ps⟩
  · simp [State.putReel]
  · simp only
    rw [reelsGranted_put p _ _ ho ha, portsLeaving_put p _ _ ho ha]
    rfl

/-- A change into READY, with the grant of the head of the queue (R12). -/
theorem makeReady_eq {s : State} {i : Nat} {r : Reel} (ho : tableOrdered s.reels) (hr : s.reelAt i = some r) :
    makeReady i s = s.readied i r := by
  unfold makeReady State.readied
  simp only [hr]
  rcases hw : r.waiters with _ | ⟨p, ps⟩
  · simp [State.putReel]
  · have ho' : tableOrdered (s.putReel i { r with custody := .ready }).reels := tableOrdered_put ho _ _
    have hr' : (s.putReel i { r with custody := .ready }).reelAt i = some { r with custody := .ready } :=
      tableGet_put_self _ _ _
    simp only [hw] at ho' hr' ⊢
    rw [grant_table_eq p ho' hr']
    unfold State.granting
    simp only [State.putReel_settings, State.putReel_reels, State.putReel_ports]
    rw [reelsGranted_put p _ _ ho hr, portsLeaving_put p _ _ ho hr]
    simp [State.putReel, hw]

/-- A change into RESTING, or READY with a preset of 0 (R8, R10). -/
theorem makeResting_eq {s : State} {i : Nat} {r : Reel} (ho : tableOrdered s.reels) (hr : s.reelAt i = some r) :
    makeResting i s = s.rested i r := by
  unfold makeResting State.rested
  simp only [hr]
  split
  · have h1 : tableOrdered (s.putReel i { r with exposureSeconds := 0 }).reels := tableOrdered_put ho _ _
    have h2 : (s.putReel i { r with exposureSeconds := 0 }).reelAt i = some { r with exposureSeconds := 0 } :=
      tableGet_put_self _ _ _
    rw [makeReady_eq h1 h2, State.readied_put _ _ ho hr]
  · simp [State.putReel, Nat.mul_comm]

/-- The state before a record is filled in is all that `readied` reads of the custody. -/
theorem State.readied_custody (s : State) (i : Nat) (r : Reel) (c : Custody) :
    s.readied i { r with custody := c } = s.readied i r := rfl

/-- The end of a custody: the claims returned, then the change into READY (R15, R17, R107). -/
theorem endCustody_eq {s : State} {i : Nat} {r : Reel} (p : Port) (lapsed : Option Port)
    (n : PerPort PortState → PerPort PortState) (ho : tableOrdered s.reels) (hr : s.reelAt i = some r) :
    endCustody i p lapsed (fun s => { s with ports := n s.ports }) s =
      ({ s with ports := n s.ports } : State).readied i
        { r with defects := returnClaims p r.defects, lapsed := lapsed } := by
  unfold endCustody
  simp only [hr]
  let r1 : Reel := { r with defects := returnClaims p r.defects, lapsed := lapsed }
  let r2 : Reel := { r1 with custody := .ready }
  let s1 : State := { s with ports := n s.ports }
  have h1 : tableOrdered (s1.putReel i r2).reels := tableOrdered_put ho i r2
  have h2 : (s1.putReel i r2).reelAt i = some r2 := tableGet_put_self _ _ _
  have h3 := makeReady_eq h1 h2
  rw [State.readied_put (s := s1) (a := r) r2 r2 ho hr] at h3
  exact h3.trans (State.readied_custody s1 i r1 .ready)

end Sys2Proof.Machine
end

