-- ==== Sys2Proof/Laws/KeepsStart.lean ====
section
/-! SUPPORT. What the steps of start-up and of an applied setting keep. -/

namespace Sys2Proof.Machine

/-! ### Start-up -/

theorem Keeps.startAlert (cond : Bool) (code : AlertCode) (place : Option AlertPlace) (s : State) :
    Keeps s (startAlert cond code place s) := .ite (fun _ => .raiseAlert _ _ _ _ (fun _ => rfl)) (fun _ => .refl s)

theorem Keeps.startReelAlerts (test : Reel → Bool) (code : AlertCode) (h : code ≠ .boardFull) (s : State) :
    Keeps s (startReelAlerts test code s) := .foldl (fun s _ => .raiseAlert _ _ _ s (fun e => absurd e h)) _ s

/-- The start-up alerts are raised on an empty board (R160). -/
theorem Keeps.startAlerts (s : State) :
    Keeps { s with suiteMinute := 0, suiteSecond := 0, alerts := [] } (startAlerts s) := by
  unfold Machine.startAlerts
  exact .after (.startAlert _ _ _ _) (.after (.startAlert _ _ _ _) (.after (.startReelAlerts _ _ (by decide) _)
    (.after (.startReelAlerts _ _ (by decide) _) (.after (.startAlert _ _ _ _) (.after (.startAlert _ _ _ _)
      (.after (.startAlert _ _ _ _) (.startAlert _ _ _ _)))))))

theorem Keeps.faultOrder (i : Nat) (r : Reel) (s : State) : Keeps s (faultOrder i r s) := by
  unfold Machine.faultOrder
  split
  · exact .rest ..
  · exact .after (.vacateSlot _ _ _) (.rest ..)
  · exact .refl s

theorem Keeps.markLostBelow (limit : Nat) (s : State) : Keeps s (markLostBelow limit s) :=
  .ite (fun _ => .foldl (fun s _ => .ite (fun _ => .refl s) (fun _ => .setSlot _ _ _)) _ s) (fun _ => .refl s)

theorem Keeps.markLostSlots (s : State) : Keeps s (markLostSlots s) := .markLostBelow _ s

/-- The reset of the reels is the faulting of orders, then the restart of each record in its place. -/
theorem resetReels_shape (test : Nat → Bool) (s : State) : ∃ t, Keeps s t ∧ resetReels test s =
    { t with reels := t.reels.map (fun e => if test e.1 then (e.1, e.2.restarted t.settings) else e) } :=
  ⟨_, .foldl (fun s (e : Nat × Reel) => .faultOrder e.1 e.2 s) (s.reels.filter (fun e => test e.1)) s, rfl⟩

/-- The reset of the records is the faulting of orders, the restart of each record, and the check of the slots. -/
theorem resetRecords_shape (s : State) : ∃ t, Keeps s t ∧
    Keeps { t with reels := t.reels.map (fun e => (e.1, e.2.restarted t.settings)) } (resetRecords s) := by
  obtain ⟨t, h, e⟩ := resetReels_shape (fun _ => true) s
  refine ⟨t, h, ?_⟩
  unfold resetRecords
  rw [e]
  exact .checkSlots _

/-- The last step of start-up opens the ports and clears the lost mark with a new check value; the rest is as the steps
before left it. -/
theorem startUp_shape (mem : SettingsRead) (b0 b1 : Bool) (s : State) : ∃ t u,
    t = resetWork b0 b1 (resetRecords (resumeRenumber (markLostSlots (loadSettings mem (findMemory mem s))))) ∧
    Keeps { t with suiteMinute := 0, suiteSecond := 0, alerts := [] } u ∧
    startUp mem b0 b1 s = { u with
      phase := .running, ports := .const (.opened (startCode u)), lostMark := false, checkSkew := 0 } :=
  ⟨_, _, rfl, .startAlerts _, rfl⟩

theorem resumeRenumber_pending (s : State) : (resumeRenumber s).pending = s.pending := by
  unfold resumeRenumber
  split
  · rfl
  · dsimp only; split <;> rfl

theorem resumeTo_pending (k : ResumeStage) (s : State) : (resumeTo k s).pending = s.pending := by
  unfold resumeTo
  split
  · rfl
  · split <;> rfl

theorem findMemory_pending (mem : SettingsRead) (s : State) : (findMemory mem s).pending = s.pending := by
  cases mem <;> rfl

theorem loadSettings_pending (mem : SettingsRead) (s : State) : (loadSettings mem s).pending = s.pending := by
  unfold loadSettings
  split <;> rfl

/-- The check value matches the sum exactly when the held difference is 0 (R174). -/
theorem State.storeSum_eq_checkValue (s : State) : s.storeSum = s.checkValue ↔ s.checkSkew = 0 := by
  unfold State.checkValue
  constructor
  · intro h; exact (left_eq_add.1 h)
  · intro h; rw [h]; exact (add_zero _).symm

/-- A store that matches is kept, and any other is emptied with the lost mark set (R175). -/
theorem checkStore_eq (s : State) : checkStore s = if s.checkSkew = 0 then s else
    { s with
      reels := [], slots := [], rack := [], orders := [], pendingRenumber := none, lostMark := true,
      checkSkew := 0 } := by
  unfold checkStore
  simp only [State.storeSum_eq_checkValue]

theorem checkStore_pending (s : State) : (checkStore s).pending = s.pending := by
  unfold checkStore
  split <;> rfl

/-- A block written by the part has a check that matches it (R177). -/
@[simp] theorem SettingsBlock.valid_of (g : Settings) : (SettingsBlock.of g).valid = true := by
  simp [SettingsBlock.valid, SettingsBlock.of]

theorem resetWork_pending (b0 b1 : Bool) (s : State) : (resetWork b0 b1 s).pending = s.pending := rfl

theorem resetReels_pending (test : Nat → Bool) (s : State) : (resetReels test s).pending = s.pending := by
  obtain ⟨t, h, e⟩ := resetReels_shape test s
  rw [e]; exact h.pending

theorem startUp_pending (mem : SettingsRead) (b0 b1 : Bool) (s : State) :
    (startUp mem b0 b1 s).pending = s.pending := by
  obtain ⟨t, u, ht, hk, e⟩ := startUp_shape mem b0 b1 s
  have hr : (resetRecords (resumeRenumber (markLostSlots (loadSettings mem (findMemory mem s))))).pending =
      s.pending := by
    rw [resetRecords, (Keeps.checkSlots _).pending, resetReels_pending, resumeRenumber_pending,
      (Keeps.markLostSlots _).pending, loadSettings_pending, findMemory_pending]
  have ht' : t.pending = s.pending := by rw [ht, resetWork_pending, hr]
  rw [e]
  exact hk.pending.trans ht'

/-- A start-up that is cut off touches none of the commands that wait. -/
theorem startTo_pending {check : State → State} (hc : ∀ s, (check s).pending = s.pending) (mem : SettingsRead)
    (k : StartStage) (s : State) : (startTo check mem k s).pending = s.pending := by
  have hl : (loadSettings mem (check (findMemory mem s))).pending = s.pending := by
    rw [loadSettings_pending, hc, findMemory_pending]
  unfold startTo
  cases k <;> dsimp only
  · exact findMemory_pending mem s
  · rw [hc, findMemory_pending]
  · rw [(Keeps.markLostBelow _ _).pending]; exact hl
  · rw [resumeTo_pending, (Keeps.markLostSlots _).pending]; exact hl
  · rw [resetReels_pending, resumeRenumber_pending, (Keeps.markLostSlots _).pending]; exact hl
  · rw [(Keeps.checkSlotsBelow _ _).pending, resetReels_pending, resumeRenumber_pending,
      (Keeps.markLostSlots _).pending]; exact hl

theorem powerLoss_pending (store : StoreLoss) (s : State) : (powerLoss store s).pending = s.pending := by
  cases store <;> rfl

theorem start_pending {check : State → State} (hc : ∀ s, (check s).pending = s.pending) (mem : SettingsRead)
    (b0 b1 : Bool) (cut : Option StartCut) (s : State) : (start check mem b0 b1 cut s).pending = s.pending := by
  unfold start
  split
  · rw [startUp_pending, hc]
  · rename_i c
    have h : (coverStore s (startTo check mem c.stage s)).pending = s.pending := by
      unfold coverStore
      split <;> exact startTo_pending hc mem c.stage s
    unfold endStart
    split
    · rw [powerLoss_pending, h]
    · exact h

/-! ### Settings -/

theorem Keeps.testZone (zone : Nat) (s : State) : Keeps s (testZone zone s) := .foldl (fun s _ => .testExposure _ s) _ s

theorem Keeps.settingEffects (q : SettingRequest) (s : State) : Keeps s (settingEffects q s) := by
  unfold Machine.settingEffects
  split
  · exact (Keeps.checkSlots s).trans (.testZone q.zone _)
  · exact .refl s

/-- A WRITE_SETTING is refused with a reply, or its image is applied with its effects and its write-back begun
(R177). -/
theorem takeSetting_cases (q : SettingRequest) (s : State) :
    (∃ code, settingChecks q s = .error code ∧ takeSetting q s = placeReply q.port code [] s) ∨
    (∃ a t, settingChecks q s = .ok a ∧ Keeps { s with settings := a.image } t ∧
      takeSetting q s = { t with writeBack := some { request := q, clamped := a.clamped, image := a.image } }) := by
  unfold takeSetting
  split
  · rename_i code h; exact Or.inl ⟨code, h, rfl⟩
  · rename_i a h; exact Or.inr ⟨a, _, h, .settingEffects q _, rfl⟩

end Sys2Proof.Machine
end

