-- ==== Sys2Proof/Laws/PerInstr.lean ====
section
/-! SUPPORT. The per-command family `RoundTrip`: the arguments of a well-formed request fit the fields of its kind and
are read back from them as the request they came from (R180). One lemma for each constructor of `Instr`. -/

namespace Sys2Proof.Laws

open Sys2Proof.Machine

/-- A request's arguments fit the widths of its kind and spell the request again; a command that is no request has
none (R180). -/
def RoundTrip.Statement (i : Instr) : Prop :=
  i.wellFormed → ∀ p k args, i.request = some (p, k, args) →
    fitAll k.widths args ∧ requestOf i.breakSample p k args = some i

theorem RoundTrip.powerOn (run : StartRun) (break0 break1 : Bool) :
    RoundTrip.Statement (.powerOn run break0 break1) := by
  intro _ q k args h; cases h

theorem RoundTrip.reset (run : StartRun) (break0 break1 : Bool) :
    RoundTrip.Statement (.reset run break0 break1) := by
  intro _ q k args h; cases h

theorem RoundTrip.fetch (p : Port) (clocks : Nat) : RoundTrip.Statement (.fetch p clocks) := by
  intro _ q k args h; cases h

theorem RoundTrip.malformedFrame (p : Port) (frame : Bytes) : RoundTrip.Statement (.malformedFrame p frame) := by
  intro _ q k args h; cases h

theorem RoundTrip.enrol (p : Port) (reel slot gauge home : Nat) :
    RoundTrip.Statement (.enrol p reel slot gauge home) := by
  rintro ⟨h1, h2, h3, h4⟩ q k args h
  cases h
  exact ⟨.cons h1 (.cons h2 (.cons h3 (.cons h4 .nil))), rfl⟩

theorem RoundTrip.retire (p : Port) (reel : Nat) : RoundTrip.Statement (.retire p reel) := by
  rintro h1 q k args h
  cases h
  exact ⟨.cons h1 .nil, rfl⟩

theorem RoundTrip.recallReel (p : Port) (reel : Nat) : RoundTrip.Statement (.recallReel p reel) := by
  rintro h1 q k args h
  cases h
  exact ⟨.cons h1 .nil, rfl⟩

theorem RoundTrip.take (p : Port) (reel : Nat) : RoundTrip.Statement (.take p reel) := by
  rintro h1 q k args h
  cases h
  exact ⟨.cons h1 .nil, rfl⟩

theorem RoundTrip.withdraw (p : Port) (reel : Nat) : RoundTrip.Statement (.withdraw p reel) := by
  rintro h1 q k args h
  cases h
  exact ⟨.cons h1 .nil, rfl⟩

theorem RoundTrip.mounted (p : Port) (reel : Nat) : RoundTrip.Statement (.mounted p reel) := by
  rintro h1 q k args h
  cases h
  exact ⟨.cons h1 .nil, rfl⟩

theorem RoundTrip.release (p : Port) (reel : Nat) : RoundTrip.Statement (.release p reel) := by
  rintro h1 q k args h
  cases h
  exact ⟨.cons h1 .nil, rfl⟩

theorem RoundTrip.returnReel (p : Port) (reel : Nat) : RoundTrip.Statement (.returnReel p reel) := by
  rintro h1 q k args h
  cases h
  exact ⟨.cons h1 .nil, rfl⟩

theorem RoundTrip.readReel (p : Port) (reel : Nat) : RoundTrip.Statement (.readReel p reel) := by
  rintro h1 q k args h
  cases h
  exact ⟨.cons h1 .nil, rfl⟩

theorem RoundTrip.listReels (p : Port) (index count : Nat) : RoundTrip.Statement (.listReels p index count) := by
  rintro ⟨h1, h2⟩ q k args h
  cases h
  exact ⟨.cons h1 (.cons h2 .nil), rfl⟩

theorem RoundTrip.restingTimerExpiry (reel : Nat) : RoundTrip.Statement (.restingTimerExpiry reel) := by
  intro _ q k args h; cases h

theorem RoundTrip.threadingTimerExpiry (reel : Nat) : RoundTrip.Statement (.threadingTimerExpiry reel) := by
  intro _ q k args h; cases h

theorem RoundTrip.exposureMinute (reel : Nat) : RoundTrip.Statement (.exposureMinute reel) := by
  intro _ q k args h; cases h

theorem RoundTrip.moveDone (p : Port) (reel order : Nat) : RoundTrip.Statement (.moveDone p reel order) := by
  rintro ⟨h1, h2⟩ q k args h
  cases h
  exact ⟨.cons h1 (.cons h2 .nil), rfl⟩

theorem RoundTrip.moveFailed (p : Port) (reel order : Nat) : RoundTrip.Statement (.moveFailed p reel order) := by
  rintro ⟨h1, h2⟩ q k args h
  cases h
  exact ⟨.cons h1 (.cons h2 .nil), rfl⟩

theorem RoundTrip.moveWaitExpiry (reel : Nat) : RoundTrip.Statement (.moveWaitExpiry reel) := by
  intro _ q k args h; cases h

theorem RoundTrip.locate (p : Port) (reel placeKind place : Nat) :
    RoundTrip.Statement (.locate p reel placeKind place) := by
  rintro ⟨h1, h2, h3⟩ q k args h
  cases h
  exact ⟨.cons h1 (.cons h2 (.cons h3 .nil)), rfl⟩

theorem RoundTrip.slotReport (p : Port) (slot content reel : Nat) :
    RoundTrip.Statement (.slotReport p slot content reel) := by
  rintro ⟨h1, h2, h3⟩ q k args h
  cases h
  exact ⟨.cons h1 (.cons h2 (.cons h3 .nil)), rfl⟩

theorem RoundTrip.blockSlot (p : Port) (slot : Nat) : RoundTrip.Statement (.blockSlot p slot) := by
  rintro h1 q k args h
  cases h
  exact ⟨.cons h1 .nil, rfl⟩

theorem RoundTrip.unblockSlot (p : Port) (slot : Nat) : RoundTrip.Statement (.unblockSlot p slot) := by
  rintro h1 q k args h
  cases h
  exact ⟨.cons h1 .nil, rfl⟩

theorem RoundTrip.readSlots (p : Port) (area first count : Nat) :
    RoundTrip.Statement (.readSlots p area first count) := by
  rintro ⟨h1, h2, h3⟩ q k args h
  cases h
  exact ⟨.cons h1 (.cons h2 (.cons h3 .nil)), rfl⟩

theorem RoundTrip.perfEdge (t : Transport) (time : Word32) (dir : Sense) :
    RoundTrip.Statement (.perfEdge t time dir) := by
  intro _ q k args h; cases h

theorem RoundTrip.encoderStep (t : Transport) (sense : Sense) : RoundTrip.Statement (.encoderStep t sense) := by
  intro _ q k args h; cases h

theorem RoundTrip.breakAsserted (t : Transport) : RoundTrip.Statement (.breakAsserted t) := by
  intro _ q k args h; cases h

theorem RoundTrip.reverseEdge (t : Transport) : RoundTrip.Statement (.reverseEdge t) := by
  intro _ q k args h; cases h

theorem RoundTrip.setSpeed (p : Port) (code : Nat) : RoundTrip.Statement (.setSpeed p code) := by
  rintro h1 q k args h
  cases h
  exact ⟨.cons h1 .nil, rfl⟩

theorem RoundTrip.clearBreak (p : Port) (breakNow : Bool) : RoundTrip.Statement (.clearBreak p breakNow) := by
  rintro _ q k args h
  cases h
  exact ⟨.nil, rfl⟩

theorem RoundTrip.startPass (p : Port) (kind f0 endFrame : Nat) :
    RoundTrip.Statement (.startPass p kind f0 endFrame) := by
  rintro ⟨h1, h2, h3⟩ q k args h
  cases h
  exact ⟨.cons h1 (.cons h2 (.cons h3 .nil)), rfl⟩

theorem RoundTrip.endPass (p : Port) (tail : Nat) : RoundTrip.Statement (.endPass p tail) := by
  rintro h1 q k args h
  cases h
  exact ⟨.cons h1 .nil, rfl⟩

theorem RoundTrip.closePass (p : Port) : RoundTrip.Statement (.closePass p) := by
  rintro _ q k args h
  cases h
  exact ⟨.nil, rfl⟩

theorem RoundTrip.verificationWalk (w : WalkRun) : RoundTrip.Statement (.verificationWalk w) := by
  intro _ q k args h; cases h

theorem RoundTrip.readPass (p : Port) (transport : Nat) : RoundTrip.Statement (.readPass p transport) := by
  rintro h1 q k args h
  cases h
  exact ⟨.cons h1 .nil, rfl⟩

theorem RoundTrip.reportDefect (p : Port) (reel f span kind severity noteGiven note : Nat) :
    RoundTrip.Statement (.reportDefect p reel f span kind severity noteGiven note) := by
  rintro ⟨h1, h2, h3, h4, h5, h6, h7⟩ q k args h
  cases h
  exact ⟨.cons h1 (.cons h2 (.cons h3 (.cons h4 (.cons h5 (.cons h6 (.cons h7 .nil)))))), rfl⟩

theorem RoundTrip.claim (p : Port) (entry : Nat) : RoundTrip.Statement (.claim p entry) := by
  rintro h1 q k args h
  cases h
  exact ⟨.cons h1 .nil, rfl⟩

theorem RoundTrip.unclaim (p : Port) (entry : Nat) : RoundTrip.Statement (.unclaim p entry) := by
  rintro h1 q k args h
  cases h
  exact ⟨.cons h1 .nil, rfl⟩

theorem RoundTrip.reportRepair (p : Port) (entry : Nat) : RoundTrip.Statement (.reportRepair p entry) := by
  rintro h1 q k args h
  cases h
  exact ⟨.cons h1 .nil, rfl⟩

theorem RoundTrip.deferEntry (p : Port) (entry : Nat) : RoundTrip.Statement (.deferEntry p entry) := by
  rintro h1 q k args h
  cases h
  exact ⟨.cons h1 .nil, rfl⟩

theorem RoundTrip.readDefects (p : Port) (reel index count : Nat) :
    RoundTrip.Statement (.readDefects p reel index count) := by
  rintro ⟨h1, h2, h3⟩ q k args h
  cases h
  exact ⟨.cons h1 (.cons h2 (.cons h3 .nil)), rfl⟩

theorem RoundTrip.purgeVerified (p : Port) (reel : Nat) : RoundTrip.Statement (.purgeVerified p reel) := by
  rintro h1 q k args h
  cases h
  exact ⟨.cons h1 .nil, rfl⟩

theorem RoundTrip.markSplice (p : Port) (reel f : Nat) : RoundTrip.Statement (.markSplice p reel f) := by
  rintro ⟨h1, h2⟩ q k args h
  cases h
  exact ⟨.cons h1 (.cons h2 .nil), rfl⟩

theorem RoundTrip.removeFrames (p : Port) (reel f n : Nat) : RoundTrip.Statement (.removeFrames p reel f n) := by
  rintro ⟨h1, h2, h3⟩ q k args h
  cases h
  exact ⟨.cons h1 (.cons h2 (.cons h3 .nil)), rfl⟩

theorem RoundTrip.defectWalk : RoundTrip.Statement (.defectWalk) := by
  intro _ q k args h; cases h

theorem RoundTrip.sceneWalk : RoundTrip.Statement (.sceneWalk) := by
  intro _ q k args h; cases h

theorem RoundTrip.setScene (p : Port) (reel start r g b fade hold : Nat) :
    RoundTrip.Statement (.setScene p reel start r g b fade hold) := by
  rintro ⟨h1, h2, h3, h4, h5, h6, h7⟩ q k args h
  cases h
  exact ⟨.cons h1 (.cons h2 (.cons h3 (.cons h4 (.cons h5 (.cons h6 (.cons h7 .nil)))))), rfl⟩

theorem RoundTrip.deleteScene (p : Port) (reel start hold : Nat) :
    RoundTrip.Statement (.deleteScene p reel start hold) := by
  rintro ⟨h1, h2, h3⟩ q k args h
  cases h
  exact ⟨.cons h1 (.cons h2 (.cons h3 .nil)), rfl⟩

theorem RoundTrip.setTrim (p : Port) (reel : Nat) (r g b : Int) (hold : Nat) :
    RoundTrip.Statement (.setTrim p reel r g b hold) := by
  rintro ⟨h1, h2, h3, h4, h5⟩ q k args h
  cases h
  refine ⟨.cons h1 (.cons (byteOfSigned_fits r) (.cons (byteOfSigned_fits g) (.cons (byteOfSigned_fits b)
    (.cons h5 .nil)))), ?_⟩
  simp only [requestOf, signedByte_byteOfSigned h2, signedByte_byteOfSigned h3, signedByte_byteOfSigned h4]

theorem RoundTrip.abandonEdit (p : Port) : RoundTrip.Statement (.abandonEdit p) := by
  rintro _ q k args h
  cases h
  exact ⟨.nil, rfl⟩

theorem RoundTrip.lockGrade (p : Port) (reel : Nat) : RoundTrip.Statement (.lockGrade p reel) := by
  rintro h1 q k args h
  cases h
  exact ⟨.cons h1 .nil, rfl⟩

theorem RoundTrip.unlockGrade (p : Port) (reel : Nat) : RoundTrip.Statement (.unlockGrade p reel) := by
  rintro h1 q k args h
  cases h
  exact ⟨.cons h1 .nil, rfl⟩

theorem RoundTrip.readScenes (p : Port) (reel index count : Nat) :
    RoundTrip.Statement (.readScenes p reel index count) := by
  rintro ⟨h1, h2, h3⟩ q k args h
  cases h
  exact ⟨.cons h1 (.cons h2 (.cons h3 .nil)), rfl⟩

theorem RoundTrip.previewLights (p : Port) (reel frame : Nat) : RoundTrip.Statement (.previewLights p reel frame) := by
  rintro ⟨h1, h2⟩ q k args h
  cases h
  exact ⟨.cons h1 (.cons h2 .nil), rfl⟩

theorem RoundTrip.clearAlert (p : Port) (code reel : Nat) : RoundTrip.Statement (.clearAlert p code reel) := by
  rintro ⟨h1, h2⟩ q k args h
  cases h
  exact ⟨.cons h1 (.cons h2 .nil), rfl⟩

theorem RoundTrip.readAlerts (p : Port) : RoundTrip.Statement (.readAlerts p) := by
  rintro _ q k args h
  cases h
  exact ⟨.nil, rfl⟩

theorem RoundTrip.suiteMinute : RoundTrip.Statement (.suiteMinute) := by
  intro _ q k args h; cases h

theorem RoundTrip.readSettings (p : Port) : RoundTrip.Statement (.readSettings p) := by
  rintro _ q k args h
  cases h
  exact ⟨.nil, rfl⟩

theorem RoundTrip.writeSetting (p : Port) (item zone value : Nat) :
    RoundTrip.Statement (.writeSetting p item zone value) := by
  rintro ⟨h1, h2, h3⟩ q k args h
  cases h
  exact ⟨.cons h1 (.cons h2 (.cons h3 .nil)), rfl⟩

theorem RoundTrip.writeBackDone (answered : Bool) : RoundTrip.Statement (.writeBackDone answered) := by
  intro _ q k args h; cases h

theorem RoundTrip.fetchNotice (p : Port) : RoundTrip.Statement (.fetchNotice p) := by
  rintro _ q k args h
  cases h
  exact ⟨.nil, rfl⟩

theorem RoundTrip.clearFlags (p : Port) (mask : Nat) : RoundTrip.Statement (.clearFlags p mask) := by
  rintro h1 q k args h
  cases h
  exact ⟨.cons h1 .nil, rfl⟩

theorem RoundTrip.resetPort (p : Port) : RoundTrip.Statement (.resetPort p) := by
  rintro _ q k args h
  cases h
  exact ⟨.nil, rfl⟩

theorem RoundTrip.resetAsserted : RoundTrip.Statement (.resetAsserted) := by
  intro _ q k args h; cases h

theorem RoundTrip.powerLoss (store : StoreLoss) : RoundTrip.Statement (.powerLoss store) := by
  intro _ q k args h; cases h

end Sys2Proof.Laws
end

