-- ==== Sys2Proof/Tests/Slice0.lean ====
section
/-! SUPPORT. Small tests: ill-formed commands refused, frames written out from the spec's layout, worked values of the
spec, and for each statement with hypotheses a state and operands that meet them. -/

namespace Sys2Proof.Tests

open Sys2Proof Sys2Proof.Machine

/-! ### Helpers -/

/-- A reel at rest-rack position 2, READY, from home slot 5. -/
def ready : Reel :=
  { id := 7, gauge := .g35x4, zone := 0, home := some 5, current := some 5, previous := none, rack := some 2,
    custody := .ready, waiters := [], lapsed := none, exposure := 0, exposureSeconds := 0, overexposed := false,
    frameCount := none, countConfirmed := false, pitch := none, shrunk := false, openCount := 0, blockingCount := 0,
    sceneCount := 0, trim := ⟨0, 0, 0⟩, gradeLocked := false, gradedDone := false, passNumber := 0,
    inspectCount := 0, lastOrder := 3, renumbering := false, generation := false, defects := [], scenes := [] }

/-- The part after its reset with one reel in place 0. -/
def suite (r : Reel) : State :=
  { State.reset with reels := [(0, r)], rack := [(2, 7)], slots := [(5, .away 7), (9, .occupied 9)] }

/-- The same with a move order on rack position 2. -/
def ordered (r : Reel) (o : MoveOrder) : State := { suite r with orders := [(2, o)] }

def outward : MoveOrder :=
  { reel := 7, number := 3, dir := .outbound, source := 5, dest := 2, attempt := 1, state := .waiting 90 }

def inward : MoveOrder :=
  { reel := 7, number := 3, dir := .inbound, source := 2, dest := 5, attempt := 4, state := .waiting 1 }

/-- The same with the link state of P0. -/
def linked (q : PortStatus) : State :=
  { State.reset with ports := State.reset.ports.set .p0 { State.reset.port .p0 with status := q } }

/-- A defect entry of the reel. -/
def entry : Defect :=
  { number := 0, first := 10, span := 2, kind := .scratch, severity := .cosmetic, origin := .station .p0,
    state := .opened, attempts := 0, pass := 1, note := none, generation := false }

def scene (place start fade : Nat) : Scene :=
  { place := place, start := start, lights := ⟨30, 25, 20⟩, fade := fade, generation := false }

/-- A unit's figures at count 3 of frame 100, 4 perforations a frame, 76,000 sixteenths of a micrometre apart. -/
def figures : UnitRun :=
  { reel := 7, gauge := .g35x4, f0 := 100, pitch := 76000, track := some ⟨3, 1000, 5000⟩, accepted := 4,
    spurious := 0, lastEdgeDamage := none, lockRun := 0, intervals := 0, reacquired := false, exhausted := false }

def running : Pass :=
  { kind := .inspect, reel := 7, number := 1, f0 := 100, endFrame := none, state := .running, reason := none,
    tail := none, highest := some 100, lastCaptured := some 100, captured := 1, missed := 0, spurious := 0,
    defectsRaised := 0, misses := 0, exhausted := false, carriedMark := false,
    walked := 0, verified := 0, frozenTrim := none }

/-- The reel held by P0, with T0 in a registration state, its encoder, figures and pass. -/
def passing (st : RegState) (x : Word32) (run : UnitRun) (p : Pass) : State :=
  { suite { ready with custody := .held .p0 } with
    units := ⟨{ RegUnit.cleared false with state := st, encoder := x, run := some run }, .cleared false⟩
    passes := ⟨some p, none⟩ }

def held : Reel := { ready with custody := .held .p0 }

def confirmed : Reel := { held with frameCount := some 200, countConfirmed := true }

/-- The alert with a code that names the reel. -/
def alert (c : AlertCode) (reel : Option Nat) : Alert :=
  { code := c, reel := reel, place := some (.transport .t0), minute := 0, count := 255 }

/-- A board of `n` alerts that name reels 1 to n. -/
def board (n : Nat) : List Alert := (List.range n).map (fun j => alert .overspeed (some (j + 1)))

/-- The bytes of data out after a command at P0. -/
def sent (c : Instr) (s : State) : Bytes :=
  match exec c s with
  | .next t => (t.port .p0).dataOut
  | _ => []

/-- The result code and body that P0 holds after a command. -/
def answer (c : Instr) (s : State) : Option (ResultCode × Bytes) :=
  match exec c s with
  | .next t => match (t.port .p0).status with
    | .reply r => some (r.code, r.body)
    | _ => none
  | _ => none

/-! ### Ill-formed commands -/

theorem test_illformed_reel : ¬(Instr.take .p0 (2 ^ 32)).wellFormed := by decide
theorem test_illformed_slot : ¬(Instr.enrol .p5 7 65536 0 1).wellFormed := by decide
theorem test_illformed_gauge : ¬(Instr.enrol .p5 7 5 256 1).wellFormed := by decide
theorem test_illformed_order : ¬(Instr.moveDone .p5 7 256).wellFormed := by decide
theorem test_illformed_place : ¬(Instr.locate .p5 7 0 65536).wellFormed := by decide
theorem test_illformed_frame : ¬(Instr.startPass .p0 0 65536 65535).wellFormed := by decide
theorem test_illformed_span : ¬(Instr.reportDefect .p0 7 1 65536 5 255 0 0).wellFormed := by decide
theorem test_illformed_entry : ¬(Instr.claim .p2 65536).wellFormed := by decide
theorem test_illformed_light : ¬(Instr.setScene .p4 7 1 256 0 0 0 0).wellFormed := by decide
theorem test_illformed_trim : ¬(Instr.setTrim .p4 7 (-129) 0 0 0).wellFormed := by decide
theorem test_illformed_value : ¬(Instr.writeSetting .p4 1 0 (2 ^ 64)).wellFormed := by decide
theorem test_illformed_mask : ¬(Instr.clearFlags .p4 256).wellFormed := by decide
theorem test_illformed_malformed : ¬(Instr.malformedFrame .p0 []).wellFormed := by decide
theorem test_illformed_zone :
    ¬(Instr.reset ⟨.newBlock ⟨{ defaultSettings with zones := [(8, ⟨0, 1, 60, 0⟩)] }, 0⟩, none⟩ false false).wellFormed :=
  fun h => absurd h.1 (by decide)
theorem test_illformed_zones :
    ¬(Instr.powerOn ⟨.misread ⟨{ defaultSettings with zones := [(1, ⟨0, 1, 60, 0⟩), (0, ⟨2, 3, 60, 0⟩)] }, 0⟩, none⟩
      false false).wellFormed := fun h => absurd h.1 (by decide)
theorem test_illformed_store :
    ¬(Instr.powerLoss (.changed ⟨[], [(1024, .free)], [], [], none, false⟩ 0)).wellFormed := by decide
theorem test_illformed_cut :
    ¬(Instr.reset ⟨.asHeld, some ⟨.begun, .powerLoss (.changed ⟨[], [(3, .unknown)], [], [], none, false⟩ 0)⟩⟩
      false false).wellFormed :=
  fun h => absurd (h.2 _ rfl) (by decide)
theorem test_wellformed_take : (Instr.take .p0 (2 ^ 32 - 1)).wellFormed := by decide

/-! ### Frames (R161, R163, R180): byte 0 the kind, bytes 1 and 2 the length, then the arguments -/

/-- ENROL is kind 1: reel 41007, slot 212, G35-4, home = yes. -/
theorem test_frame_enrol :
    decodeFrame false .p5 [1, 8, 0, 0x2F, 0xA0, 0, 0, 0xD4, 0, 0, 1] = some (.enrol .p5 41007 212 0 1) := by decide
/-- LIST_REELS is kind 3. -/
theorem test_frame_list_reels : decodeFrame false .p0 [3, 3, 0, 47, 48, 0] = some (.listReels .p0 47 48) := by decide
/-- MOVE_DONE is kind 11. -/
theorem test_frame_move_done :
    decodeFrame false .p5 [11, 5, 0, 7, 0, 0, 0, 255] = some (.moveDone .p5 7 255) := by decide
/-- SET_SPEED is kind 18 and START_PASS kind 20: GRADED from frame 258, no end frame. -/
theorem test_frame_passes :
    decodeFrame false .p1 [18, 1, 0, 8] = some (.setSpeed .p1 8) ∧
      decodeFrame false .p0 [20, 5, 0, 1, 2, 1, 255, 255] = some (.startPass .p0 1 258 65535) := by decide
/-- CLEAR_BREAK is kind 19 and reads the level of BREAK. -/
theorem test_frame_clear_break : decodeFrame true .p0 [19, 0, 0] = some (.clearBreak .p0 true) := by decide
/-- CLAIM is kind 25. -/
theorem test_frame_claim : decodeFrame false .p2 [25, 2, 0, 255, 15] = some (.claim .p2 4095) := by decide
/-- SET_TRIM is kind 35, its trims signed. -/
theorem test_frame_set_trim :
    decodeFrame false .p4 [35, 8, 0, 7, 0, 0, 0, 0xF4, 0, 12, 1] = some (.setTrim .p4 7 (-12) 0 12 1) := by decide
/-- WRITE_SETTING is kind 44: zone 2 present, slots 128 to 255, preset 30, limit 600. -/
theorem test_frame_write_setting :
    decodeFrame false .p4 [44, 10, 0, 0, 2, 1, 0x80, 0, 0xFF, 0, 30, 0x58, 2] =
      some (.writeSetting .p4 0 2 0x0258_1E_00FF_0080_01) := by decide
/-- FETCH_NOTICE, CLEAR_FLAGS and RESET_PORT are kinds 45 to 47. -/
theorem test_frame_port :
    decodeFrame false .p3 [45, 0, 0] = some (.fetchNotice .p3) ∧
      decodeFrame false .p3 [46, 1, 0, 5] = some (.clearFlags .p3 5) ∧
      decodeFrame false .p3 [47, 0, 0] = some (.resetPort .p3) := by decide
/-- FETCH is kind 0; its further bytes only clock data out. -/
theorem test_frame_fetch : decodeFrame false .p1 [0, 0, 0, 9, 9] = some (.fetch .p1 2) := by decide
/-- A fetch with a length, an unknown kind, a wrong length and a short body are malformed. -/
theorem test_frame_malformed :
    decodeFrame false .p1 [0, 1, 0, 9] = some (.malformedFrame .p1 [0, 1, 0, 9]) ∧
      decodeFrame false .p1 [48, 0, 0] = some (.malformedFrame .p1 [48, 0, 0]) ∧
      decodeFrame false .p1 [25, 3, 0, 1, 0, 0] = some (.malformedFrame .p1 [25, 3, 0, 1, 0, 0]) ∧
      decodeFrame false .p1 [25, 2, 0, 1] = some (.malformedFrame .p1 [25, 2, 0, 1]) ∧
      decodeFrame false .p1 [] = none := by decide
/-- No row of the table has bits, so a table word spells no command and changes no queue. -/
theorem test_table_word : decodeTableWord 8 1 = none ∧ State.reset.withFetchWord 8 1 = State.reset := by decide

/-! ### Worked values of the spec -/

/-- The table of R147. -/
theorem test_gains :
    [0, 1, 12, 13, 20, 21, 22, 25, 29, 37, 49, 50].map gainOf =
      [967, 1024, 1933, 2048, 3069, 3251, 3445, 4096, 5161, 8192, 16384, 17360] := by decide

/-- The fade table of R145: frames 2000 to 2005, a rise from 20 to 29 and a fall from 29 to 20. -/
theorem test_fades :
    let cs (a b : Nat) : List Scene :=
      [{ scene 0 0 0 with lights := ⟨a, a, a⟩ }, { scene 1 2000 5 with lights := ⟨b, b, b⟩ }, scene 2 2100 0]
    ([0, 1, 2, 3, 4, 5].map (fun j => (lightsAt (2000 + j) (cs 20 29) ⟨0, 0, 0⟩).r),
      [0, 1, 2, 3, 4, 5].map (fun j => (lightsAt (2000 + j) (cs 29 20) ⟨0, 0, 0⟩).r)) =
      ([22, 23, 25, 26, 28, 29], [27, 26, 24, 23, 21, 20]) := by decide

/-- The table of R61. -/
theorem test_shrinkage :
    ([75640, 75366, 76314, 68256, 77356].map (shrinkageOf .g35x4),
      [117000, 109728, 124358].map (shrinkageOf .g16x1)) = ([26, 63, -63, 1000, -200], [404, 1000, -200]) := by decide

/-- The window table of section 3.5 for P = 75640, and the lower limit. -/
theorem test_windows :
    [66176, 66192, 85088, 85104, 141824, 141840, 160720, 160736, 227520].map (classify 75640) =
      [.spurious, .normal, .normal, .pitchBreak, .pitchBreak, .oneMissing, .oneMissing, .pitchBreak, .pitchBreak] ∧
      [66192, 85088].map (filteredPitch .g35x4 75640) = [74459, 76821] ∧
      [85104, 141824, 160736, 227520].map (pitchesIn 75640) = [1, 2, 2, 3] ∧
      classify 68300 59760 = .spurious ∧ filteredPitch .g35x4 68300 59776 = 68256 := by decide

/-- The waits of R33. -/
theorem test_waits :
    ([1, 2, 3, 4].map (moveWait { defaultSettings with firstWait := 90 }),
      [1, 2, 3].map (moveWait { defaultSettings with firstWait := 300 }),
      [1, 4].map (moveWait { defaultSettings with firstWait := 720 })) =
      ([90, 180, 360, 720], [300, 600, 720], [720, 720]) := by decide

/-- The settings defaults that R176 loads, and their clamps (10 section 10.2). -/
theorem test_settings_clamp :
    clampBlock { defaultSettings with cycle0 := 1, cycle1 := 0, threading := 29, reissue := 8 } =
      { defaultSettings with cycle0 := 2000, cycle1 := 0, threading := 30, reissue := 7 } ∧
      clampedItems { defaultSettings with cycle0 := 1, reissue := 8 } = 2 ^ 8 + 2 ^ 14 := by decide

/-- The next order number after 255 is 1 (R31). -/
theorem test_order_numbers : [0, 1, 254, 255].map nextOrder = [1, 2, 255, 1] := by decide

/-- An idle port sends the no-reply header: notice count 1, the board of the start, no flag (R163, R180). -/
theorem test_idle_fetch : sent (.fetch .p0 9) State.reset = [4, 0, 0, 1, 2, 7, 0, 0, 255] := by decide

/-- A reply of one body byte goes out whole and is read by its last byte (R163). -/
theorem test_reply_read :
    sent (.fetch .p0 9) (linked (.reply ⟨.queued, 1, 0, none, .clear, [3]⟩)) = [2, 1, 0, 1, 0, 255, 0, 0, 3] := by
  decide

/-- SET_SPEED of 8 is CLAMPED to 7 under a cap of 7 (R63). -/
theorem test_set_speed : answer (.setSpeed .p0 8) State.reset = some (.clamped, [7, 7, 7]) := by decide

/-- CLEAR_BREAK while BREAK is asserted is refused (R67). -/
theorem test_clear_break : answer (.clearBreak .p0 true) State.reset = some (.breakActive, []) := by decide

/-- TAKE of a READY reel grants it, with the custody reply (R12, R182). -/
theorem test_take : answer (.take .p0 7) (suite ready) = some (.ok, [0, 4]) := by decide

/-- Entries 10 to 11 and 95 to 104 of a removal of frames 100 to 102 (R120). -/
theorem test_defect_walk :
    let w : Renumber := { reel := 7, f := 100, n := 3, target := true }
    (walkDefects w [{ entry with first := 10 }, { entry with first := 95, span := 10 },
        { entry with first := 101, span := 2 }, { entry with first := 101, span := 5 },
        { entry with first := 99, span := 3 }, { entry with first := 103, span := 1 }]).map
        (fun d => (d.first, d.span, decide (d.state = .removed))) =
      [(10, 2, false), (95, 7, false), (100, 2, true), (100, 3, false), (99, 1, false), (100, 1, false)] := by decide

/-! ### For each statement with hypotheses, a state and operands that meet them -/

/-- A closed port and a WORKING port, reached by a request and by a fetch. -/
theorem witness_FramesIgnored :
    (portOf (.readAlerts .p0) = some .p0 ∧ ((linked .closed).port .p0).status = .closed) ∧
      (portOf (.fetch .p0 0) = some .p0 ∧ ((linked .working).port .p0).status = .working) := by decide

theorem witness_RoleRefused :
    (Instr.take .p4 7).request = some (.p4, .take, [7]) ∧ State.reset.rdy .p4 = true ∧ .take ∉ roleOf .p4 := by decide

/-- An idle port, a reply read by its last byte and one byte short of it, and a malformed frame at a ready port. -/
theorem witness_FetchAndMalformed :
    (State.reset.port .p0).status = .idle ∧
      ((linked (.reply ⟨.ok, 0, 0, none, .clear, [3]⟩)).port .p0).status =
        .reply ⟨.ok, 0, 0, none, .clear, [3]⟩ ∧
      8 + ([3] : Bytes).length ≤ 9 ∧ ¬(8 + ([3] : Bytes).length ≤ 8) ∧
      ([48, 0, 0] : Bytes) ≠ [] ∧ State.reset.rdy .p0 = true ∧
      (portOf (.take .p0 7) = some .p0 ∧ ∀ clocks, Instr.take .p0 7 ≠ .fetch .p0 clocks) ∧
      portOf (.malformedFrame .p0 [48, 0, 0]) = some .p0 ∧ portOf (.fetch .p0 12) = some .p0 ∧
      ((linked .working).port .p0).status = .working ∧ 8 + ([3] : Bytes).length ≤ 11 :=
  ⟨by decide, by decide, by decide, by decide, by decide, by decide, ⟨by decide, fun _ h => by cases h⟩, by decide,
    by decide, by decide, by decide⟩

/-- A frame that is no command and one that is; a request at the greatest values of its fields, and a fetch. -/
theorem witness_FrameCodec :
    ([48, 0, 0] : Bytes) ≠ [] ∧
      (Instr.locate .p5 (2 ^ 32 - 1) 255 65535).wellFormed ∧
      encodeFrame (.locate .p5 (2 ^ 32 - 1) 255 65535) = some [13, 7, 0, 255, 255, 255, 255, 255, 255, 255] ∧
      (Instr.setTrim .p4 7 (-128) 127 (-1) 1).wellFormed ∧
      encodeFrame (.setTrim .p4 7 (-128) 127 (-1) 1) = some [35, 8, 0, 7, 0, 0, 0, 128, 127, 255, 1] ∧
      (Instr.fetch .p0 1).wellFormed ∧ encodeFrame (.fetch .p0 1) = some [0, 0, 0, 0] ∧
      (∀ p f, Instr.fetch .p0 1 ≠ .malformedFrame p f) :=
  ⟨by decide, by decide, by decide, by decide, by decide, by decide, by decide, fun _ _ h => by cases h⟩

/-- Room for exactly one entry more, for none, and a marker in the queue. -/
theorem witness_NoticePlacing :
    let q (n : Nat) (m : Option Marker) : PortState :=
      { State.reset.port .p0 with notices := List.replicate n (.lapsed 7), marker := m }
    (q 14 none).status ≠ .closed ∧ (q 14 none).marker = none ∧
      entriesTaken (q 14 none).notices + (Notice.lapsed 8).entries = 15 ∧
      15 < entriesTaken (q 15 none).notices + (Notice.lapsed 8).entries ∧
      (q 15 (some ⟨255, 4⟩)).marker = some ⟨255, 4⟩ := by decide

theorem witness_FetchNoticeSends :
    let s (q : PortState) : State := { State.reset with ports := State.reset.ports.set .p0 q }
    let q := State.reset.port .p0
    State.reset.rdy .p0 = true ∧ q.notices = [.start (.degraded true true)] ∧
      (s { q with notices := [], marker := some ⟨1, 4⟩ }).rdy .p0 = true ∧
      ((s { q with notices := [], marker := some ⟨1, 4⟩ }).port .p0).marker = some ⟨1, 4⟩ ∧
      (s { q with notices := [] }).rdy .p0 = true ∧ ((s { q with notices := [] }).port .p0).notices = [] ∧
      (Notice.lapsed 7).entries = 1 ∧ (Notice.moveOrder outward 90).entries = 2 := by decide

/-- A port that holds a reply takes CLEAR_FLAGS and RESET_PORT. -/
theorem witness_FlagsAndPortReset : (linked (.reply ⟨.ok, 0, 0, none, .clear, []⟩)).rdy .p0 = true := by decide

/-- A reel ID that no record carries, the ID 0, and a reel that is RENUMBERING, for a request of each shape. -/
theorem witness_ReelLookupFirst :
    ((suite { ready with renumbering := true }).rdy .p0 = true ∧
      (∀ e ∈ (suite ready).reels, e.2.id ≠ 8) ∧ (∀ e ∈ (suite ready).reels, e.2.id ≠ 0) ∧
      (suite { ready with renumbering := true }).findReel 7 = some (0, { ready with renumbering := true })) ∧
    ((Instr.take .p0 8).request = some (.p0, .take, [8]) ∧ .take ∈ roleOf .p0 ∧
      (Instr.moveDone .p5 7 3).request = some (.p5, .moveDone, [7, 3]) ∧ .moveDone ∈ roleOf .p5 ∧
      (Instr.readDefects .p5 7 0 1).request = some (.p5, .readDefects, [7, 0, 1]) ∧ .readDefects ∈ roleOf .p5 ∧
      (Instr.markSplice .p2 7 0).request = some (.p2, .markSplice, [7, 0]) ∧ .markSplice ∈ roleOf .p2) ∧
    ((Instr.locate .p5 8 2 1024).request = some (.p5, .locate, [8, 2, 1024]) ∧ .locate ∈ roleOf .p5 ∧
      (Instr.reportDefect .p0 8 0 0 9 255 1 0).request = some (.p0, .reportDefect, [8, 0, 0, 9, 255, 1, 0]) ∧
      .reportDefect ∈ roleOf .p0) :=
  ⟨by decide, by decide, by decide⟩

/-- ENROL that passes every check; and one that meets a slot with another reel. -/
theorem witness_EnrolMakesRecord :
    (suite ready).rdy .p5 = true ∧ zoneOf (suite ready).settings 9 = some 0 ∧
      (suite ready).slotAt 9 = .occupied 9 ∧ (suite ready).slotAt 5 ≠ .occupied 9 ∧
      (List.range 48).find? (fun i => ((suite ready).reelAt i).isNone) = some 1 := by decide

/-- RETIRE of a reel that is not SHELVED, of one with a counted entry, and of one that may go. -/
theorem witness_RetireEmptiesPlace :
    let r : Reel := { ready with custody := .shelved, rack := none }
    (suite r).rdy .p4 = true ∧ (suite r).names 7 0 r ∧ r.renumbering = false ∧ r.custody = .shelved ∧
      r.openCount = 0 ∧ ready.custody ≠ .shelved ∧ (suite ready).names 7 0 ready ∧
      (suite { r with openCount := 1 }).names 7 0 { r with openCount := 1 } ∧ r.openCount + 1 ≠ 0 := by decide

theorem witness_RecallIssuesOrder :
    let r : Reel := { ready with custody := .shelved, rack := none }
    (suite r).rdy .p0 = true ∧ Port.p0 ≠ .p5 ∧ (suite r).names 7 0 r ∧ r.renumbering = false ∧ r.custody = .shelved := by
  decide

theorem witness_TakeGrantsOrQueues :
    (suite ready).rdy .p0 = true ∧ holderPort .p0 ∧ (suite ready).names 7 0 ready ∧ ready.renumbering = false := by decide

/-- WITHDRAW of a port in the queue, and MOUNTED by the holder. -/
theorem witness_WithdrawAndMounted :
    let r : Reel := { ready with custody := .granted .p0 300, waiters := [.p1, .p2] }
    (suite r).rdy .p1 = true ∧ holderPort .p1 ∧ (suite r).names 7 0 r ∧ r.renumbering = false ∧ .p1 ∈ r.waiters ∧
      (suite r).rdy .p0 = true ∧ holderPort .p0 ∧ r.custody.holder = some .p0 := by decide

theorem witness_ReleaseReadies :
    let r : Reel := { held with waiters := [.p1], defects := [{ entry with state := .claimed .p0 }] }
    (suite r).rdy .p0 = true ∧ holderPort .p0 ∧ (suite r).names 7 0 r ∧ r.renumbering = false ∧
      r.custody.holder = some .p0 := by decide

/-- RETURN with waiters, of a HELD reel, with no slot to go to, and with its home slot; and the three candidates. -/
theorem witness_ReturnAndResolution :
    let q : Reel := { ready with waiters := [.p1] }
    let away : Reel := { ready with home := none, current := none }
    let near : Reel := { away with previous := some 6 }
    let t : State := { suite near with slots := [(6, .free)] }
    let u : State := { suite away with slots := [(6, .occupied 9), (8, .free)] }
    ((suite q).rdy .p0 = true ∧ Port.p0 ≠ .p5 ∧ (suite q).names 7 0 q ∧ q.renumbering = false ∧ q.rack = some 2 ∧
      q.waiters ≠ []) ∧
    ((suite held).names 7 0 held ∧ held.rack = some 2 ∧ held.waiters = [] ∧ held.custody ≠ .ready) ∧
    ((suite away).names 7 0 away ∧ away.rack = some 2 ∧ away.custody = .ready ∧ resolveSlot away (suite away) = none) ∧
    ((suite ready).names 7 0 ready ∧ ready.rack = some 2 ∧ ready.waiters = [] ∧ ready.custody = .ready ∧
      resolveSlot ready (suite ready) = some 5) ∧
    (tableOrdered (suite ready).slots ∧ ready.home = some 5 ∧ (suite ready).slotAt 5 = .away ready.id) ∧
    (tableOrdered t.slots ∧ near.home = none ∧ near.previous = some 6 ∧ t.slotAt 6 = .free) ∧
    (tableOrdered u.slots ∧ away.home = none ∧ away.previous = none ∧ resolveSlot away u = some 8) := by decide

/-- A RESTING reel, a GRANTED one, and one that is neither. -/
theorem witness_TimersExpire :
    let r : Reel := { ready with custody := .resting 1 }
    let g : Reel := { ready with custody := .granted .p0 0 }
    State.reset.phase = .running ∧ (suite r).names 7 0 r ∧ r.custody = .resting 1 ∧ (suite g).names 7 0 g ∧
      g.custody = .granted .p0 0 ∧ (suite ready).names 7 0 ready ∧ (∀ w, ready.custody ≠ .resting w) ∧
      (∀ p w, ready.custody ≠ .granted p w) :=
  ⟨by decide, by decide, by decide, by decide, by decide, by decide, (fun _ h => by cases h), (fun _ _ h => by cases h)⟩

/-- A reel that does not count; one at no limit; one that reaches a limit of 1 minute, below it and OVEREXPOSED. -/
theorem witness_TimersExpire_exposure :
    let s (r : Reel) (limit : Nat) : State :=
      { suite r with settings := { defaultSettings with zones := [(0, ⟨0, 1023, 60, limit⟩)] } }
    let shelved : Reel := { ready with custody := .shelved }
    ((s shelved 1).phase = .running ∧ (s shelved 1).names 7 0 shelved ∧ shelved.custody = .shelved) ∧
    ((s ready 0).names 7 0 ready ∧
      ¬(ready.custody = .shelved ∨ ready.custody = .outbound ∨ ready.custody = .moveFault .outbound) ∧
      zoneLimit (s ready 0).settings ready.zone = 0) ∧
    (ready.overexposed = false ∧ zoneLimit (s ready 1).settings ready.zone = 1 ∧
      1 ≤ min 65535 (ready.exposure + 1)) ∧
    min 65535 (ready.exposure + 1) < zoneLimit (s ready 2).settings ready.zone := by decide

/-- An outbound move that ends in time, and one that ends late. -/
theorem witness_OutboundMoveDone :
    let r : Reel := { ready with custody := .outbound }
    let f : Reel := { ready with custody := .moveFault .outbound }
    ((ordered r outward).rdy .p5 = true ∧ (ordered r outward).names 7 0 r ∧ r.renumbering = false ∧ r.rack = some 2 ∧
      tableGet (ordered r outward).orders 2 = some outward ∧ r.lastOrder ≠ 0 ∧ r.custody = .outbound) ∧
    ((ordered f outward).names 7 0 f ∧ f.rack = some 2 ∧
      tableGet (ordered f outward).orders 2 = some outward ∧ f.custody = .moveFault .outbound) := by decide

/-- An inbound move in time; late into a slot of its own, and into a slot that another reel has. -/
theorem witness_InboundMoveDone :
    let r : Reel := { ready with custody := .inbound }
    let f : Reel := { ready with custody := .moveFault .inbound }
    let taken : MoveOrder := { inward with dest := 9 }
    ((ordered r inward).rdy .p5 = true ∧ (ordered r inward).names 7 0 r ∧ tableOrdered (ordered r inward).slots ∧
      r.renumbering = false ∧ r.rack = some 2 ∧ tableGet (ordered r inward).orders 2 = some inward ∧
      r.lastOrder ≠ 0 ∧ r.custody = .inbound) ∧
    ((ordered f taken).names 7 0 f ∧ tableGet (ordered f taken).orders 2 = some taken ∧
      f.custody = .moveFault .inbound ∧ (ordered f taken).slotAt taken.dest ≠ .free ∧
      (ordered f taken).slotAt taken.dest ≠ .away 7) ∧
    (tableGet (ordered f inward).orders 2 = some inward ∧ (ordered f inward).slotAt inward.dest = .away 7) := by decide

/-- MOVE_FAILED of a reel on its way, the three refusals, a FAULTED order, and a wait at and below the last attempt. -/
theorem witness_MovesFail :
    let f : Reel := { ready with custody := .moveFault .inbound }
    let r : Reel := { ready with custody := .inbound }
    let faulted : MoveOrder := { inward with state := .faulted }
    ((ordered r inward).rdy .p5 = true ∧ (ordered r inward).names 7 0 r ∧ r.renumbering = false ∧ r.rack = some 2 ∧
      tableGet (ordered r inward).orders 2 = some inward ∧ r.lastOrder ≠ 0 ∧ r.custody = .inbound) ∧
    ((4 : Nat) ≠ 0 ∧ 4 ≠ r.lastOrder ∧ 3 = r.lastOrder ∧ (∀ k ∈ r.rack, tableGet (suite r).orders k = none)) ∧
    ((ordered r inward).phase = .running ∧ tableGet (ordered r faulted).orders 2 = some faulted ∧
      faulted.state = .faulted) ∧
    (inward.state = .waiting 1 ∧ (ordered r inward).settings.reissue + 1 = inward.attempt) ∧
    (tableGet (ordered r outward).orders 2 = some outward ∧ outward.state = .waiting 90 ∧
      outward.attempt < (ordered r outward).settings.reissue + 1) ∧
    ((ordered f faulted).rdy .p5 = true ∧ (ordered f faulted).names 7 0 f ∧
        tableGet (ordered f faulted).orders 2 = some faulted ∧ f.custody ≠ .outbound ∧ f.custody ≠ .inbound) ∧
    (ready.inFault = false ∧ ready.custody ≠ .outbound ∧ ready.custody ≠ .inbound ∧
      tableGet (ordered ready inward).orders 2 = some inward) := by decide

theorem witness_LocateEndsFault :
    let f : Reel := { ready with custody := .moveFault .inbound }
    (ordered f inward).rdy .p5 = true ∧ (ordered f inward).names 7 0 f ∧ tableOrdered (ordered f inward).slots ∧
      f.renumbering = false ∧ f.rack = some 2 ∧ tableGet (ordered f inward).orders 2 = some inward ∧
      f.custody = .moveFault .inbound ∧
      (1 < 2 ∧ (suite ready).rdy .p5 = true ∧ (suite ready).names 7 0 ready ∧ 1 ≤ 1 ∧ ready.inFault = false) := by decide

theorem witness_SlotRecords : (suite ready).rdy .p5 = true := by decide

/-- An ignored edge of each of the four sorts, and an encoder step. -/
theorem witness_IgnoredEdgesAndSteps :
    { State.reset with phase := .resetHeld }.phase ≠ .running ∧ Sense.reverse = .reverse ∧
      (State.reset.unit .t0).state = .idle ∧
      ((passing .locked 0 { figures with exhausted := true } running).unit .t0).state ≠ .armed ∧
      (∃ run ∈ ((passing .locked 0 { figures with exhausted := true } running).unit .t0).run, run.exhausted = true) ∧
      State.reset.phase = .running :=
  ⟨by decide, rfl, by decide, by decide, ⟨_, rfl, rfl⟩, by decide⟩

theorem witness_FirstEdgeLocks :
    let g : Pass := { running with kind := .graded, frozenTrim := some ⟨0, -12, 12⟩ }
    let r : Reel := { held with scenes := [scene 0 10 0, scene 1 20 48] }
    let run : UnitRun := { figures with track := none }
    let s := passing .armed 0 run { running with state := .armed }
    s.phase = .running ∧ (s.unit .t0).state = .armed ∧ (s.unit .t0).run = some run ∧
      s.pass .t0 = some { running with state := .armed } ∧ running.endFrame ≠ some run.f0 ∧
      (running.kind = .inspect ∧ g.kind = .graded ∧ (suite r).names g.reel 0 r ∧
          g.frozenTrim = some ⟨0, -12, 12⟩ ∧ scenesRise r.scenes) := by decide

/-- A third spurious edge, in LOCKED and in REACQUIRE, at the greatest interval below the window, and edges at both ends of the window of one
pitch, inside a frame: P is 76000 and a pitch 4750 µm. -/
theorem witness_EdgesInsideAFrame :
    let run : UnitRun := { figures with track := some ⟨0, 1000, 5000⟩, spurious := 2 }
    let s (m : Word32) := passing .locked (1000 + m) run running
    let m16 (m : Word32) : Nat := 16 * (((s m).unit .t0).encoder - 1000).toNat
    ((s 4156).phase = .running ∧ ((s 4156).unit .t0).state = .locked ∧ ((s 4156).unit .t0).run = some run ∧
      run.track = some ⟨0, 1000, 5000⟩ ∧ run.exhausted = false ∧ (s 4156).pass .t0 = some running ∧
      m16 4156 < run.pitch - run.pitch / 8) ∧
    (((passing .reacquire 5156 run running).unit .t0).state = .reacquire ∧
      ((passing .reacquire 5156 run running).unit .t0).run = some run ∧
      ((passing .reacquire 5156 run running).unit .t0).encoder = ((s 4156).unit .t0).encoder) ∧
    ((s 4157).names run.reel 0 held ∧ run.pitch - run.pitch / 8 ≤ m16 4157 ∧
      m16 5343 ≤ run.pitch + run.pitch / 8 ∧ run.pitch + run.pitch / 8 < m16 5344 ∧
      (0 + 1) % run.gauge.perFrame ≠ 0 ∧ 0 + 1 ≤ run.countLimit) := by decide

/-- An edge just past the window inside a frame, and one of three pitches that passes the boundary of frame 101; the
interval that locks again; one that does not. -/
theorem witness_BreakAndReacquire :
    let m := 16 * 14250
    let run : UnitRun := { figures with track := some ⟨0, 1000, 5000⟩, lockRun := 2 }
    let s (st : RegState) (m : Word32) := passing st (1000 + m) run running
    let m16 (m : Word32) : Nat := 16 * (((s .locked m).unit .t0).encoder - 1000).toNat
    let advance (m : Word32) := max 1 ((m16 m + run.pitch / 2) / run.pitch)
    ((s .locked 5344).phase = .running ∧ ((s .locked 5344).unit .t0).run = some run ∧
      run.track = some ⟨0, 1000, 5000⟩ ∧ run.exhausted = false) ∧
    (run.pitch - run.pitch / 8 ≤ m16 5344 ∧ 0 + advance 5344 ≤ run.countLimit ∧
      0 / run.gauge.perFrame = (0 + advance 5344) / run.gauge.perFrame) ∧
    (figures.track = some ⟨3, 1000, 5000⟩ ∧ ¬(m ≤ figures.pitch + figures.pitch / 8) ∧
        ¬(m ≤ 2 * figures.pitch + figures.pitch / 8) ∧ 3 + max 1 ((m + figures.pitch / 2) / figures.pitch) = 6 ∧
        3 / figures.gauge.perFrame < 6 / figures.gauge.perFrame ∧ 6 ≤ figures.countLimit) ∧
    (((s .locked 5344).unit .t0).state = .locked ∧ ¬(run.pitch - run.pitch / 8 ≤ m16 5344 ∧ m16 5344 ≤ run.pitch + run.pitch / 8) ∧
      ¬(2 * run.pitch - run.pitch / 8 ≤ m16 5344 ∧ m16 5344 ≤ 2 * run.pitch + run.pitch / 8)) ∧
    (((s .reacquire 4157).unit .t0).state = .reacquire ∧ run.pitch - run.pitch / 8 ≤ m16 4157 ∧
      m16 4157 ≤ run.pitch + run.pitch / 8 ∧ 2 ≤ run.lockRun ∧ advance 4157 = 1) ∧
    (¬((run.pitch - run.pitch / 8 ≤ m16 5344 ∧ m16 5344 ≤ run.pitch + run.pitch / 8) ∧ 2 ≤ run.lockRun) ∧
      ({ run with intervals := 62 } : UnitRun).intervals + 1 < 64) := by decide

/-- An idle unit, and a unit that registers a pass. -/
theorem witness_BreakAndReverse :
    State.reset.phase = .running ∧ (State.reset.unit .t0).state = .idle ∧
      ((passing .locked 0 figures running).unit .t0).state ≠ .idle ∧
      ((passing .locked 0 figures running).unit .t0).run = some figures ∧
      (passing .locked 0 figures running).pass .t0 = some running := by decide

theorem witness_SpeedAndLatch : State.reset.rdy .p0 = true ∧ pairedTransport .p0 = some .t0 := by decide

/-- A stored estimate outside the limits of G35-4, 68256 to 77356 (03 section 3.2), is clamped at arming (R47). -/
theorem test_arming_clamps :
    (armedRun { held with pitch := some ⟨1000000, 0⟩ } 0).pitch = 77356 ∧
      (armedRun { held with pitch := some ⟨1, 0⟩ } 0).pitch = 68256 := by decide

/-- A START_PASS that passes every check. -/
theorem witness_StartPassArms :
    let s := suite held
    s.rdy .p0 = true ∧ pairedTransport .p0 = some .t0 ∧ s.reelTableOk ∧ s.heldBy .p0 = some (0, held) ∧
      s.pass .t0 = none ∧ (s.unit .t0).breakLatch = false ∧ s.settings.cycle0 ≠ 0 := by decide

theorem witness_ClosePass_end :
    (passing .locked 0 figures running).rdy .p0 = true ∧ pairedTransport .p0 = some .t0 := by decide

/-- A CLOSING pass, an ARMED one, an ENDED one that frees its place, and a COMPLETE INSPECT one with entries. -/
theorem witness_ClosePass :
    let ended : Pass := { running with state := .ended, reason := some .stopped, tail := some false }
    let whole : Pass := { running with f0 := 0, state := .ended, reason := some .complete, tail := some true }
    let r : Reel := { held with defects := [entry] }
    let s := passing .idle 0 figures ended
    let t : State := { passing .idle 0 { figures with accepted := 63 } whole with reels := [(0, r)] }
    let u := passing .idle 0 { figures with accepted := 64 } { whole with highest := none }
    (s.rdy .p0 = true ∧ pairedTransport .p0 = some .t0 ∧ s.pass .t0 = some ended ∧ ended.state = .ended ∧
      ¬(ended.kind = .inspect ∧ ended.reason = some .complete) ∧ (s.unit .t0).run = some figures ∧
      figures.reel = ended.reel ∧ s.names ended.reel 0 held) ∧
    ((passing .idle 0 figures { ended with state := .closing }).pass .t0 = some { ended with state := .closing } ∧
      (passing .armed 0 figures { running with state := .armed }).pass .t0 = some { running with state := .armed }) ∧
    (t.rdy .p0 = true ∧ t.pass .t0 = some whole ∧ whole.state = .ended ∧ whole.kind = .inspect ∧
      whole.reason = some .complete ∧ whole.highest = some 100 ∧
      (t.unit .t0).run = some { figures with accepted := 63 } ∧ 63 < 64 ∧ t.names whole.reel 0 r ∧
      r.defects ≠ []) ∧
    (u.pass .t0 = some { whole with highest := none } ∧ (u.unit .t0).run = some { figures with accepted := 64 } ∧
        figures.reel = whole.reel ∧ u.names whole.reel 0 held ∧ held.defects = []) := by decide

/-- A CLOSING pass over frames 10 and 11, its walk at the first of two REPAIRED entries that end at its highest
boundary. -/
def closing : Pass := { running with state := .closing, reason := some .complete, f0 := 10, highest := some 11 }

def repairedTwice : Reel :=
  { held with defects := [{ entry with state := .repaired }, { entry with number := 1, state := .repaired }] }

def verifying : State := { passing .idle 0 figures closing with reels := [(0, repairedTwice)] }

/-- The walk that passes two entries ends, the walk that passes one stands between them, and a state with no CLOSING
pass. -/
theorem witness_VerificationWalks :
    verifying.phase = .running ∧ verifying.pass .t0 = some closing ∧ closing.state = .closing ∧
      closing.kind = .inspect ∧ closing.highest = some 11 ∧ verifying.names closing.reel 0 repairedTwice ∧
      repairedTwice.defects.length ≤ closing.walked + 2 ∧ closing.walked + 1 < repairedTwice.defects.length ∧
      (∀ p ∈ State.reset.pass .t0, p.state ≠ .closing) := by decide

/-- A reset between the two entries: the first stays VERIFIED, the second REPAIRED (R110). -/
theorem test_reset_stops_the_walk :
    (resetAsserted (verificationWalk ⟨.t0, some 1⟩ verifying)).reels.map
      (fun e => e.2.defects.map (·.state)) = [[.verified, .repaired]] := by decide

/-- The fourth perforation of a frame, 5000 µs after the third: a frame period of exactly the cycle time, and one
microsecond less. -/
theorem witness_CaptureDecides :
    let run : UnitRun := { figures with track := some ⟨2, 1000, 5000⟩ }
    let u := passing .locked 10500 run running
    let s := passing .locked 5750 figures running
    (s.phase = .running ∧ (s.unit .t0).state = .locked ∧ (s.unit .t0).run = some figures ∧
      figures.track = some ⟨3, 1000, 5000⟩ ∧ figures.exhausted = false ∧ s.pass .t0 = some running ∧
      running.state = .running ∧ s.names figures.reel 0 held) ∧
    (figures.pitch - figures.pitch / 8 ≤ 16 * ((s.unit .t0).encoder - 1000).toNat ∧
      16 * ((s.unit .t0).encoder - 1000).toNat ≤ figures.pitch + figures.pitch / 8 ∧
      (3 + 1) % figures.gauge.perFrame = 0 ∧ 3 + 1 ≤ figures.countLimit ∧
      running.endFrame ≠ some (figures.f0 + (3 + 1) / figures.gauge.perFrame)) ∧
    s.settings.cycle0 ≤ figures.gauge.perFrame * ((10000 : Word32) - 5000).toNat ∧
    figures.gauge.perFrame * ((9999 : Word32) - 5000).toNat < s.settings.cycle0 ∧
    ((u.unit .t0).state = .locked ∧ (u.unit .t0).run = some run ∧ run.track = some ⟨2, 1000, 5000⟩ ∧
        u.pass .t0 = some running ∧ u.names run.reel 0 held ∧
        16 * ((u.unit .t0).encoder - 1000).toNat = 2 * run.pitch ∧ ¬(2 * run.pitch ≤ run.pitch + run.pitch / 8) ∧
        (2 + 2) % run.gauge.perFrame = 0 ∧ 2 + 2 ≤ run.countLimit ∧
        run.gauge.perFrame * (((15000 : Word32) - 5000).toNat / 2) = u.settings.cycle0 ∧
        run.gauge.perFrame * (((14999 : Word32) - 5000).toNat / 2) < u.settings.cycle0) := by decide

/-- One missing perforation inside a frame, and over the boundary of an end frame on a reel of one perforation a frame;
each way to meet the count limit; the 64th interval, with and without the end frame passed; an end frame. -/
theorem witness_EdgesThatEnd :
    let run : UnitRun := { figures with track := some ⟨0, 1000, 5000⟩ }
    let last : UnitRun := { figures with f0 := 65534 }
    let ends : Pass := { running with endFrame := some 101 }
    let wide : UnitRun := { run with gauge := .g16x1, pitch := 121920 }
    let near (g : UnitRun) (m : Nat) : Bool := g.pitch - g.pitch / 8 ≤ 16 * m && 16 * m ≤ g.pitch + g.pitch / 8
    let double (g : UnitRun) (m : Nat) : Bool :=
      2 * g.pitch - g.pitch / 8 ≤ 16 * m && 16 * m ≤ 2 * g.pitch + g.pitch / 8
    let nearest (g : UnitRun) (m : Nat) : Nat := max 1 ((16 * m + g.pitch / 2) / g.pitch)
    let s := passing .locked 10500 run running
    let late : UnitRun := { run with intervals := 63 }
    (s.phase = .running ∧ (s.unit .t0).run = some run ∧ run.track = some ⟨0, 1000, 5000⟩ ∧ run.exhausted = false ∧
      s.pass .t0 = some running ∧ ((s.unit .t0).encoder - 1000).toNat = 9500) ∧
    ((s.unit .t0).state = .locked ∧ near run 9500 = false ∧ double run 9500 = true ∧ 0 + 2 ≤ run.countLimit ∧
      (0 + 2) % run.gauge.perFrame ≠ 0) ∧
    (near wide 15240 = false ∧ double wide 15240 = true ∧ 0 + 2 ≤ wide.countLimit ∧
      (0 + 2) % wide.gauge.perFrame = 0 ∧ ends.state = .running ∧ ends.endFrame = some 101 ∧
      wide.f0 + 0 / wide.gauge.perFrame < 101 ∧ 101 < wide.f0 + (0 + 2) / wide.gauge.perFrame) ∧
    (last.track = some ⟨3, 1000, 5000⟩ ∧ last.countLimit = 3 ∧ near last 4750 = true ∧
      (near last 9500 = false ∧ double last 9500 = true) ∧
      (near last 14250 = false ∧ double last 14250 = false ∧ last.countLimit < 3 + nearest last 14250)) ∧
    (((passing .reacquire 10500 late running).unit .t0).state = .reacquire ∧
      late.pitch - late.pitch / 8 ≤ 16 * 9500 ∧ near late 9500 = false ∧ 64 ≤ late.intervals + 1 ∧
      0 + nearest late 9500 ≤ late.countLimit ∧ (∀ e, running.endFrame ≠ some e) ∧
      late.f0 + 0 / 4 < 101 ∧ 101 ≤ late.f0 + (0 + nearest late 19000) / late.gauge.perFrame) ∧
    (near figures 4750 = true ∧ (3 + 1) % figures.gauge.perFrame = 0 ∧ 3 + 1 ≤ figures.countLimit ∧
      ends.endFrame = some (figures.f0 + (3 + 1) / figures.gauge.perFrame) ∧
      { ends with endFrame := none } = running ∧
      (∃ v, exec (.perfEdge .t0 10000 .forward) (passing .locked 5750 figures running) = .next v ∧
        (v.pass .t0).isSome = true)) :=
  ⟨by decide, by decide, by decide, by decide,
    ⟨by decide, by decide, by decide, by decide, by decide, (fun _ h => by cases h), by decide⟩,
    by decide, by decide, by decide, by decide, by decide, ⟨_, rfl, by decide⟩⟩

/-- A bad byte, and each check of a report in its order, at the boundaries of its ranges. -/
theorem witness_ReportChecks :
    let busy : State :=
      { suite held with passes := ⟨some { running with state := .closing }, none⟩ }
    let counted : Reel := { held with frameCount := some 20 }
    (suite held).rdy .p0 = true ∧ holderPort .p0 ∧ 9 < 10 ∧ (suite held).names 7 0 held ∧
      (suite { held with renumbering := true }).names 7 0 { held with renumbering := true } ∧
      held.custody.holder ≠ some .p1 ∧ held.custody.holder = some .p0 ∧
      busy.pass .t0 = some { running with state := .closing } ∧
      (∀ q ∈ (suite held).pass .t0, q.reel = 7 → q.state ≠ .closing) ∧
      (∀ q ∈ (suite held).pass .t1, q.reel = 7 → q.state ≠ .closing) ∧
      9 ∈ [0, 1, 2, 3, 9] ∧ 4 ∉ [0, 1, 2, 3, 9] ∧ 255 < 256 ∧ 65534 < 65280 + 255 ∧
      (suite counted).names 7 0 counted ∧ counted.frameCount = some 20 ∧ (∀ e ∈ (suite held).reels, e.2.id ≠ 8) ∧
      (∀ e ∈ (suite held).reels, e.2.id ≠ 0) := by decide

/-- A first entry on a reel held by a scanner with a RUNNING pass, at the last frame that a span of 255 reaches; and a
splice. -/
theorem witness_DetectionMakesEntry :
    let s := passing .locked 0 figures running
    let b : State := suite { ready with custody := .held .p2 }
    (s.rdy .p0 = true ∧ s.names 7 0 held ∧ held.renumbering = false ∧ held.custody.holder = some .p0 ∧
      held.defects.length < 1024 ∧ 0 < 4096 ∧ 0 ∉ s.allDefects.map (·.number) ∧ holderPort .p0 ∧
      (∀ q ∈ s.pass .t0, q.reel = 7 → q.state ≠ .closing) ∧ (∀ q ∈ s.pass .t1, q.reel = 7 → q.state ≠ .closing) ∧
      DefectKind.tear ∈ [DefectKind.tear, .scratch, .dirt, .emulsionLoss, .warp] ∧
      (∀ e ∈ held.defects, e.kind ≠ .tear) ∧ 65280 + 255 ≤ 65535 ∧ (∀ c ∈ held.frameCount, 65280 < c)) ∧
    (b.rdy .p2 = true ∧ b.names 7 0 { ready with custody := .held .p2 } ∧ (∀ e ∈ ready.defects, e.kind ≠ .splice)) := by
  decide

/-- A reel of 1024 entries, none of them a tear or a splice, held by a scanner and by a bench; and a splice by a port that
does not hold the reel, and at its frame count. -/
theorem witness_DetectionMakesEntry_lost :
    let full (p : Port) : Reel :=
      { ready with
        custody := .held p
        defects := List.replicate 1024 { entry with kind := .missedCapture, state := .removed } }
    let bench : Reel := { confirmed with custody := .held .p2 }
    ((suite (full .p0)).names 7 0 (full .p0) ∧ (full .p0).custody.holder = some .p0 ∧ (full .p0).renumbering = false ∧
      1024 ≤ (full .p0).defects.length ∧ (∀ e ∈ (full .p0).defects, e.kind ≠ .tear ∧ e.kind ≠ .splice) ∧
      (∀ q ∈ (suite (full .p0)).pass .t0, q.state ≠ .closing) ∧ (∀ q ∈ (suite (full .p0)).pass .t1, q.state ≠ .closing)) ∧
    ((suite (full .p2)).names 7 0 (full .p2) ∧ (full .p2).custody.holder = some .p2) ∧
    ((suite held).rdy .p2 = true ∧ (suite held).names 7 0 held ∧ held.custody.holder ≠ some .p2) ∧
    ((suite bench).names 7 0 bench ∧ bench.custody.holder = some .p2 ∧ bench.frameCount = some 200) := by
  decide +kernel

/-- A scratch that meets an OPEN entry of frames 10 to 11 at its last frame, a CLAIMED one, a REPAIRED one on the frame
before it at its second and third attempt, and one that ends just before it. -/
theorem witness_DetectionMeetsEntry :
    let x (f : Nat) : Detection :=
      { reel := 7, f := f, span := 1, kind := .scratch, severity := .blocking, pass := 1, origin := .station .p0,
        note := none }
    let r (d : Defect) : Reel := { held with defects := [d] }
    let claimed : Defect := { entry with state := .claimed .p2 }
    let repaired : Defect := { entry with state := .repaired, attempts := 1 }
    ((suite (r entry)).names (x 11).reel 0 (r entry) ∧ (r entry).defects = [] ++ entry :: [] ∧
      entry.kind = (x 11).kind ∧ 1 ≤ entry.span ∧ 1 ≤ (x 11).span ∧ entry.state = .opened ∧ entry.first ≤ 11 ∧
      11 < entry.first + entry.span) ∧
    ((suite (r claimed)).names 7 0 (r claimed) ∧ claimed.state = .claimed .p2) ∧
    ((suite (r repaired)).names 7 0 (r repaired) ∧ repaired.state = .repaired ∧
      repaired.first ≤ (x 9).f + (x 9).span - 1 + 1 ∧ (x 9).f ≤ repaired.first + repaired.span ∧
      repaired.attempts < 2 ∧ 2 ≤ repaired.attempts + 1) ∧
    ((x 12).kind ∈ [DefectKind.edgeDamage, .missedCapture, .scratch, .dirt] ∧
      entry.first + entry.span = (x 12).f ∧ entry.span + (x 12).span ≤ 255) := by decide

/-- An entry number out of range, one that names no entry, an entry of a RENUMBERING reel, and an entry in each state
that a request asks for. -/
theorem witness_EntryRequests :
    let bench (d : Defect) (b : Bool) : Reel :=
      { ready with custody := .held .p2, renumbering := b, defects := [d] }
    let claimed : Defect := { entry with state := .claimed .p2 }
    (suite (bench entry false)).rdy .p2 = true ∧ 4095 < 4096 ∧
      4095 ∉ (suite (bench entry false)).allDefects.map (·.number) ∧
      (suite (bench entry true)).findEntry 0 = some (0, bench entry true, entry) ∧
      (suite (bench entry false)).findEntry 0 = some (0, bench entry false, entry) ∧
      (bench entry false).renumbering = false ∧ (bench entry false).custody.holder = some .p2 ∧
      entry.state = .opened ∧
      (suite (bench claimed false)).findEntry 0 = some (0, bench claimed false, claimed) ∧
      claimed.state = .claimed .p2 ∧ Port.p2 ≠ .p3 := by decide

/-- A reel with a finished entry to free, and one whose pass is CLOSING. -/
theorem witness_PurgeFrees :
    let r : Reel := { held with defects := [{ entry with state := .verified }] }
    let busy : State := { suite r with passes := ⟨none, some { running with state := .closing }⟩ }
    (suite r).rdy .p4 = true ∧ (suite r).names 7 0 r ∧ r.renumbering = false ∧
      (∀ q ∈ (suite r).pass .t0, q.reel = 7 → q.state ≠ .closing) ∧
      (∀ q ∈ (suite r).pass .t1, q.reel = 7 → q.state ≠ .closing) ∧
      busy.pass .t1 = some { running with state := .closing } ∧ running.reel = 7 := by decide

/-- A removal of the most frames up to the very end of the film, and each check at its boundary: another holder, a reel
only GRANTED, a renumbering pending, 0 and 65 frames, an unconfirmed count, an absent count, one frame past the end. -/
theorem witness_RemoveFramesAccepts :
    let r : Reel := { confirmed with custody := .held .p2 }
    let g : Reel := { confirmed with custody := .granted .p2 10 }
    let blank : Reel := { r with frameCount := none }
    let busy : State := { suite r with pendingRenumber := some ⟨9, 0, 1, true⟩ }
    ((suite r).rdy .p2 = true ∧ (suite r).names 7 0 r ∧ r.renumbering = false ∧ r.custody = .held .p2 ∧
      (suite r).pendingRenumber = none ∧ r.countConfirmed = true ∧ r.frameCount = some 200 ∧
      ¬(64 = 0 ∨ 64 < 64) ∧ 136 + 64 = 200) ∧
    ((suite held).names 7 0 held ∧ held.custody.holder ≠ some .p2 ∧ (suite g).names 7 0 g ∧
      g.custody.holder = some .p2 ∧ g.custody ≠ .held .p2) ∧
    (busy.rdy .p2 = true ∧ busy.names 7 0 r ∧ busy.pendingRenumber = some ⟨9, 0, 1, true⟩) ∧
    (64 < 65 ∧ { r with countConfirmed := false }.countConfirmed = false ∧ (suite blank).names 7 0 blank ∧
      blank.countConfirmed = true ∧ blank.frameCount = none ∧ 200 < 137 + 64) := by decide

/-- A removal of 3 frames from 100 at the step of its defect walk, and entries at the edges of its cases: ending on 99,
from 100 to 102, 99 to 100, 102 to 103, 99 to 103, and from 103. -/
theorem witness_DefectWalkAdjusts :
    let w : Renumber := { reel := 7, f := 100, n := 3, target := true }
    let at_ (n a span : Nat) : Defect := { entry with number := n, first := a, span := span }
    let ds := [at_ 0 98 2, at_ 1 100 3, at_ 2 99 2, at_ 3 102 2, at_ 4 99 5, at_ 5 103 1,
      { at_ 6 101 1 with state := .removed }, { at_ 7 101 1 with generation := true }]
    let r : Reel := { confirmed with renumbering := true, defects := ds }
    let s : State := { suite r with pendingRenumber := some w, renumberWork := some ⟨.defectWalk, .p2⟩ }
    s.phase = .running ∧ s.pendingRenumber = some w ∧ s.renumberWork = some ⟨.defectWalk, .p2⟩ ∧
      s.names w.reel 0 r ∧ 1 ≤ w.n ∧ (∀ d ∈ r.defects, 1 ≤ d.span) ∧
      (∀ k ∈ State.reset.renumberWork, k.stage ≠ .defectWalk) := by decide

/-- Scenes that end just below the cut of frames 100 to 102, start on 100, 101 and 103, and start on 104; a cut that no
scene meets; and a part with no renumbering at this step. -/
theorem witness_SceneWalks :
    let w : Renumber := { reel := 7, f := 100, n := 3, target := true }
    let below := [scene 0 99 48]
    let inside := [scene 1 100 0, scene 2 101 0]
    let kept := [scene 3 103 7]
    let after := [scene 4 104 0]
    let r : Reel := { confirmed with renumbering := true, scenes := below ++ inside ++ kept ++ after, sceneCount := 5 }
    let clear : Reel := { r with scenes := below ++ [] ++ [] ++ after }
    let s (r : Reel) : State := { suite r with pendingRenumber := some w, renumberWork := some ⟨.sceneWalk, .p2⟩ }
    ((s r).phase = .running ∧ (s r).pendingRenumber = some w ∧ (s r).renumberWork = some ⟨.sceneWalk, .p2⟩ ∧
      (s r).names w.reel 0 r ∧ r.generation ≠ w.target ∧ (∀ c ∈ r.scenes, c.generation ≠ w.target)) ∧
    ((∀ c ∈ below, c.start < w.f) ∧ (∀ c ∈ inside, w.f ≤ c.start ∧ ∃ d ∈ kept, c.start < d.start) ∧
      (∀ d ∈ kept, w.f ≤ d.start ∧ d.start ≤ w.f + w.n) ∧ kept.length ≤ 1 ∧ (∀ c ∈ after, w.f + w.n < c.start)) ∧
    ((s clear).names w.reel 0 clear ∧ clear.scenes = below ++ [] ++ [] ++ after ∧
      (∀ c ∈ clear.scenes, c.generation ≠ w.target)) ∧
    (∀ k ∈ State.reset.renumberWork, k.stage ≠ .sceneWalk) := by decide

/-- A start frame at the end of its range, a scene to delete and none; a bad hold byte, and each refusal in order. -/
theorem witness_EditsHeldOrRefused :
    let r : Reel := { ready with scenes := [scene 0 65534 0], sceneCount := 1 }
    let counted : Reel := { ready with frameCount := some 20 }
    ((suite r).rdy .p4 = true ∧ (suite r).names 7 0 r ∧ r.renumbering = false ∧ r.gradeLocked = false ∧
      65534 ≤ 65534 ∧ (∀ n ∈ r.frameCount, 65534 < n) ∧ (∃ c ∈ editView r (suite r), c.start = 65534) ∧
      (∀ c ∈ editView r (suite r), c.start ≠ 0)) ∧
    (Instr.setTrim .p4 7 0 0 0 1 ∈ [Instr.setScene .p4 7 0 0 0 0 0 1, .deleteScene .p4 7 0 1, .setTrim .p4 7 0 0 0 1] ∧
      1 < 2 ∧ (∀ e ∈ (suite r).reels, e.2.id ≠ 8) ∧
      (suite { ready with renumbering := true }).names 7 0 { ready with renumbering := true } ∧
      (suite { ready with gradeLocked := true }).names 7 0 { ready with gradeLocked := true } ∧
      (suite counted).names 7 0 counted ∧ counted.frameCount = some 20 ∧
      Instr.deleteScene .p4 7 20 0 ≠ .setTrim .p4 7 0 0 0 0) := by decide

/-- A scene replaced or deleted between two others, one made in the lowest free place, and trims, each value at its
limit; and commits that meet the frame count and the limit of the pool. -/
theorem witness_EditsCommit :
    let cs := [scene 0 10 0, scene 1 20 48, scene 3 30 0]
    let r : Reel := { ready with scenes := cs, sceneCount := 3, frameCount := some 31 }
    let h : HeldEdits := ⟨7, [.setTrim ⟨0, 0, 0⟩, .setScene 31 ⟨0, 0, 0⟩ 0]⟩
    let ok : HeldEdits := ⟨7, [.setScene 30 ⟨0, 0, 0⟩ 0]⟩
    ((suite r).rdy .p4 = true ∧ (suite r).names 7 0 r ∧ r.renumbering = false ∧ r.gradeLocked = false ∧
      (∀ k ∈ (suite r).heldEdits, k.reel ≠ 7) ∧ (∀ c ∈ (suite r).allScenes, c.place < 2048) ∧
      (∀ c ∈ [scene 0 10 0], c.start < 20) ∧ (∀ c ∈ [scene 3 30 0], 20 < c.start) ∧ (50 : Nat) ≤ 50 ∧
      (-12 : Int) ≤ -12 ∧ (12 : Int) ≤ 12 ∧ 20 ≤ 65534 ∧ (∀ n ∈ r.frameCount, 20 < n)) ∧
    (r.scenes = [scene 0 10 0] ++ scene 1 20 48 :: [scene 3 30 0] ∧ (scene 1 20 48).start = 20 ∧
      r.scenes.length ≤ 512) ∧
    (r.scenes = [scene 0 10 0, scene 1 20 48] ++ [scene 3 30 0] ∧ (∀ c ∈ [scene 0 10 0, scene 1 20 48], c.start < 25) ∧
      0 < (suite r).sceneFree ∧ (∀ c ∈ (suite r).allScenes, c.place ≠ 2) ∧
      (∀ m < 2, ∃ c ∈ (suite r).allScenes, c.place = m)) ∧
    (({ suite r with heldEdits := some h } : State).heldEdits = some h ∧ h.reel = 7 ∧ r.frameCount = some 31 ∧
      h.edits[1]? = some (.setScene 31 ⟨0, 0, 0⟩ 0) ∧ h.edits[0]? = some (.setTrim ⟨0, 0, 0⟩)) ∧
    (ok.reel = 7 ∧ ok.edits = [.setScene 30 ⟨0, 0, 0⟩ 0] ∧ (applyEdits false (r.scenes, r.trim) ok.edits).1.length = 3) := by
  decide

/-- A batch of held edits that replaces, deletes and makes scenes and sets the trim, committed by a clamped SET_SCENE; and
the two other requests. -/
theorem witness_EditsCommit_batch :
    let cs := [scene 0 10 0, scene 1 20 48]
    let r : Reel := { ready with scenes := cs, sceneCount := 2, frameCount := some 66 }
    let h : HeldEdits :=
      ⟨7, [.setScene 20 ⟨1, 2, 3⟩ 4, .deleteScene 10, .setTrim ⟨1, 0, 0⟩, .setScene 5 ⟨9, 9, 9⟩ 0]⟩
    let s : State := { suite r with heldEdits := some h }
    let batch := s.heldFor 7 ++ [Edit.setScene 65 ⟨50, 0, 0⟩ 48]
    (s.rdy .p4 = true ∧ s.names 7 0 r ∧ r.renumbering = false ∧ r.gradeLocked = false ∧ scenesRise r.scenes ∧
      (∀ x ∈ s.allScenes, x.place < 2048) ∧ (s.allScenes.map (·.place)).Nodup) ∧
    (¬(65534 < 65 ∨ 66 ≤ 65) ∧ (⟨min 50 255, min 50 0, min 50 0⟩ : Channels Nat) = ⟨50, 0, 0⟩ ∧ min 48 49 = 48 ∧
      (∃ x ∈ editView r s, x.start = 20) ∧ (⟨max (-12) (min 12 13), 0, 0⟩ : Channels Int) = ⟨12, 0, 0⟩) ∧
    (r.frameCount = some 66 ∧
      batch = [.setScene 20 ⟨1, 2, 3⟩ 4, .deleteScene 10, .setTrim ⟨1, 0, 0⟩, .setScene 5 ⟨9, 9, 9⟩ 0,
        .setScene 65 ⟨50, 0, 0⟩ 48] ∧ 20 < 66 ∧ 5 < 66 ∧ 65 < 66) ∧
    ((applyEdits r.generation (r.scenes, r.trim) batch).1.length = 3 ∧ 3 ≤ 512 ∧
      3 ≤ r.scenes.length + s.sceneFree) := by decide

/-- `n` scenes from frame `f` on, a frame apart. -/
def run (f : Nat) : Nat → List Scene
  | 0 => []
  | n + 1 => { scene 0 0 0 with place := f, start := f } :: run (f + 1) n

/-- The two limits of a commit, with held edits and with none: 513 scenes on one reel, and a list that the pool cannot
hold. -/
theorem witness_EditsCommit_limits :
    let r : Reel := { ready with scenes := run 0 512, sceneCount := 512 }
    let s : State := { suite r with heldEdits := some ⟨7, [.setScene 600 ⟨0, 0, 0⟩ 0]⟩ }
    let more (k : Nat) : Reel := { ready with id := 10 + k, scenes := run 0 512, sceneCount := 512 }
    let t : State :=
      { suite ready with
        reels := [(0, ready), (1, more 1), (2, more 2), (3, more 3), (4, more 4)]
        heldEdits := some ⟨7, [.setScene 600 ⟨0, 0, 0⟩ 0]⟩ }
    (s.names 7 0 r ∧ 512 < (applyEdits r.generation (r.scenes, r.trim) [.setScene 600 ⟨0, 0, 0⟩ 0]).1.length) ∧
    (t.names 7 0 ready ∧ (applyEdits ready.generation (ready.scenes, ready.trim) [.setScene 600 ⟨0, 0, 0⟩ 0]).1.length = 1 ∧
      ready.scenes.length + t.sceneFree = 0) ∧
    ((suite r).heldFor 7 = [] ∧ (∀ x ∈ r.scenes, x.start ≠ 600) ∧ 512 ≤ r.scenes.length) ∧
    (({ t with heldEdits := none } : State).heldFor 7 = [] ∧ ({ t with heldEdits := none } : State).sceneFree = 0) ∧
    ((∃ x ∈ editView r s, x.start = 600) ∧ r.frameCount = none) := by decide +kernel

/-- A reel whose grade can be locked, one with an open GRADED pass, and one with none. -/
theorem witness_AbandonLockUnlock :
    let s := passing .idle 0 figures { running with kind := .graded, state := .ended, reason := some .stopped }
    (suite confirmed).rdy .p4 = true ∧ (suite confirmed).names 7 0 confirmed ∧ confirmed.renumbering = false ∧
      (∃ q ∈ s.pass .t0, q.reel = 7 ∧ q.kind = .graded) ∧ s.names 7 0 held ∧
      (∀ q ∈ (suite confirmed).pass .t0, q.reel = 7 → q.kind ≠ .graded) ∧
      (∀ q ∈ (suite confirmed).pass .t1, q.reel = 7 → q.kind ≠ .graded) :=
  ⟨by decide, by decide, by decide, ⟨_, rfl, by decide⟩, by decide, by decide, by decide⟩

/-- A frame below every scene, the last frame of a fade, and the first after it. -/
theorem witness_EffectiveLights :
    let cs := [scene 0 10 0] ++ scene 1 20 48 :: [scene 2 25 0]
    cs.Pairwise (fun a b => a.start < b.start) ∧ (∀ d ∈ cs, 9 < d.start) ∧ (scene 1 20 48).start ≤ 24 ∧
      (∀ d ∈ [scene 2 25 0], 24 < d.start) ∧ 24 < 20 + min (scene 1 20 48).fade (25 - 20) ∧
      ([scene 0 10 0] ++ scene 1 20 4 :: [scene 2 25 0]).Pairwise (fun a b => a.start < b.start) ∧
      20 + min (scene 1 20 4).fade (25 - 20) ≤ 24 := by decide

theorem witness_GainSteps : 0 ≤ 50 ∧ 50 ≤ 50 := by decide

/-- The other count at 22, at 23, with BOARD_FULL, and a merge at the greatest raise count. -/
theorem witness_AlertRaises :
    (∀ a ∈ board 22, ¬(a.code = .zoneFull ∧ a.reel = none)) ∧ (∀ a ∈ board 22, a.code ≠ .boardFull) ∧
      ((board 22).filter (fun a => a.code ≠ .boardFull)).length = 22 ∧
      (∀ a ∈ board 23, ¬(a.code = .zoneFull ∧ a.reel = none)) ∧ (∀ a ∈ board 23, a.code ≠ .boardFull) ∧
      ((board 23).filter (fun a => a.code ≠ .boardFull)).length = 23 ∧
      (∀ a ∈ board 1 ++ [alert .boardFull none], ¬(a.code = .zoneFull ∧ a.reel = none)) ∧
      (∃ a ∈ board 1 ++ [alert .boardFull none], a.code = .boardFull) ∧
      board 2 = [alert .overspeed (some 1)] ++ alert .overspeed (some 2) :: [] ∧
      (∀ b ∈ [alert .overspeed (some 1)] ++ [], ¬(b.code = .overspeed ∧ b.reel = some 2)) := by decide

/-- A code out of range, an alert that is not there, a condition alert, and a latched one whose removal brings the
others to 19 with BOARD_FULL on the board; and boards with room for one alert of a sweep and for none. -/
theorem witness_ClearAlertRemoves :
    let b := alert .overspeed none :: board 19 ++ [alert .boardFull none]
    let s : State := { State.reset with alerts := b }
    s.rdy .p0 = true ∧ 13 < 14 ∧ alertCodeOf 0 = some .filmBreak ∧
      (∀ a ∈ s.alerts, ¬(a.code = .filmBreak ∧ a.reel = none)) ∧ alertCodeOf 2 = some .overspeed ∧
      s.alerts = [] ++ alert .overspeed none :: (board 19 ++ [alert .boardFull none]) ∧
      (∀ a ∈ [] ++ (board 19 ++ [alert .boardFull none]), ¬(a.code = .overspeed ∧ a.reel = none)) ∧ 2 < 9 ∧
      (∀ a ∈ s.alerts, a.code = .boardFull → a.reel = none) ∧ alertCodeOf 13 = some .boardFull ∧ 9 ≤ 13 ∧
      s.phase = .running ∧
      (let t (n : Nat) : State := { suite { ready with overexposed := true } with alerts := board n };
        (t 22).reelTableOk ∧ (∀ a ∈ (t 22).alerts, a.code ≠ .boardFull) ∧ (t 22).alerts.length = 22 ∧
          (t 23).reelTableOk ∧ (∀ a ∈ (t 23).alerts, a.code ≠ .boardFull) ∧ (t 23).alerts.length ≤ 23) := by decide

/-- Three reels: on its way out, on its way in, and being renumbered at a bench. -/
def store (skew : BitVec 16) : State :=
  { State.reset with
    reels :=
      [(0, { ready with custody := .outbound }),
       (1, { ready with id := 8, rack := some 3, custody := .inbound, home := some 6, current := some 6, lastOrder := 4 }),
       (2, { confirmed with
         id := 9, rack := some 4, custody := .held .p2, home := none, current := none, renumbering := true,
         scenes := [scene 0 10 0], sceneCount := 1 })]
    rack := [(2, 7), (3, 8), (4, 9)]
    orders := [(2, outward), (3, { inward with reel := 8, number := 4, source := 3, dest := 6 })]
    slots := [(5, .occupied 7), (6, .reserved 8)]
    pendingRenumber := some ⟨9, 10, 2, true⟩
    checkSkew := skew }

theorem store_check : (store 0).checkValue = (store 0).storeSum :=
  ((State.storeSum_eq_checkValue _).2 rfl).symm

theorem store_check_fails : (store 1).checkValue ≠ (store 1).storeSum := fun h =>
  absurd ((State.storeSum_eq_checkValue _).1 h.symm) (by decide)

theorem store_ordersOk : (store 0).ordersOk := by
  refine ⟨by decide, ?_, by decide⟩
  intro e he x hx
  simp only [store, List.mem_cons, List.not_mem_nil, or_false] at he
  obtain rfl | rfl | rfl := he
  · cases hx; exact ⟨2, rfl, outward, rfl, by decide⟩
  · cases hx; exact ⟨3, rfl, _, rfl, by decide⟩
  · cases hx

/-- A store whose check fails, and one whose check matches with reels on their way and a renumbering pending; a block
whose check matches and one whose check does not; and a part without supply. -/
theorem witness_StartUp :
    (store 1).checkValue ≠ (store 1).storeSum ∧
      ((store 0).checkValue = (store 0).storeSum ∧ (store 0).phase ≠ .unpowered ∧ (store 0).reelTableOk ∧
        (store 0).ordersOk ∧ (store 0).slotsOk) ∧
      ((store 1).reelTableOk ∧ (store 1).ordersOk ∧ (store 1).slotsOk) ∧
      ((SettingsBlock.mk defaultSettings (blockSum defaultSettings)).check = blockSum defaultSettings ∧
        (SettingsBlock.mk defaultSettings (blockSum defaultSettings + 1)).check ≠ blockSum defaultSettings) ∧
      ({ State.reset with phase := .unpowered } : State).phase = .unpowered :=
  ⟨store_check_fails, ⟨store_check, by decide, by decide, store_ordersOk, by decide⟩, ⟨by decide, store_ordersOk, by decide⟩,
    ⟨rfl, by simp⟩, rfl⟩

/-- A start cut by RESET before its check: the check value still matches, or still does not. -/
theorem witness_StartUp_cut :
    let t (skew : BitVec 16) := powerOn .silent false false (some ⟨.begun, .resetAsserted⟩) (store skew)
    (t 0).checkValue = (t 0).storeSum ∧ (t 1).checkValue ≠ (t 1).storeSum :=
  ⟨((State.storeSum_eq_checkValue _).2 (by decide)).symm,
    fun h => absurd ((State.storeSum_eq_checkValue _).1 h.symm) (by decide)⟩

theorem witness_StoppedAtRest :
    State.reset.phase ≠ .unpowered ∧ ({ State.reset with phase := .unpowered } : State).phase = .unpowered := by decide

/-- A WRITE_SETTING at a quiet interface, with a write-back under way, with an open pass, and each bad argument; each
plain item; a zone record with every part past its range, and an absent one; the end of the write-back of the first move
wait, alone and with a request held. -/
theorem witness_SettingWritten :
    let q : SettingRequest := { port := .p4, item := 6, zone := 0, value := 721 }
    let g := State.reset.settings
    let image : Settings := { g with firstWait := 720 }
    let w : WriteBack := { request := q, clamped := true, image := image }
    let h : SettingRequest := { port := .p5, item := 0, zone := 7, value := 0 }
    let s : State := { State.reset with writeBack := some w, heldWrite := some h }
    let t : State := { s with ports := s.ports.set .p5 { s.port .p5 with status := .working } }
    (State.reset.rdy .p4 = true ∧ State.reset.writeBack = none ∧
      ({ State.reset with writeBack := some w } : State).writeBack ≠ none ∧
      (7 < 8 ∧ 1 < 258 % 256 ∧ 257 % 256 ≤ 1 ∧ 7 < 8) ∧
      (passing .idle 0 figures running).passes.t0 ≠ none ∧ State.reset.passes.t0 = none ∧
      State.reset.passes.t1 = none) ∧
    ({ g with cycle0 := 0 } = { g with cycle0 := if 2 ^ 32 % 2 ^ 32 = 0 then 0 else max 2000 (min 100000 (2 ^ 32 % 2 ^ 32)) } ∧
      { g with cycle1 := 2000 } = { g with cycle1 := max 2000 (min 100000 1) } ∧
      { g with shrinkLimit := 1000 } = { g with shrinkLimit := max 50 (min 1000 1001) } ∧
      { g with gentle := 7 } = { g with gentle := min 7 8 } ∧
      { g with threading := 30 } = { g with threading := max 30 (min 3600 29) } ∧
      image = { g with firstWait := max 30 (min 720 721) } ∧ { g with reissue := 7 } = { g with reissue := min 7 7 }) ∧
    ((suite ready).rdy .p4 = true ∧ (suite ready).writeBack = none ∧ tableOrdered (suite ready).reels ∧
      tableWithin 1024 (suite ready).slots ∧ 7 ≤ 7 ∧ (2 ^ 64 - 255) % 256 = 1 ∧ (2 ^ 64 : Nat) % 256 ≤ 1 ∧
      ready.zone = 0 ∧ ready.overexposed = false ∧ (1 : Nat) ≤ ({ ready with exposure := 1 } : Reel).exposure) ∧
    (State.reset.phase = .running ∧ ({ State.reset with writeBack := some w } : State).heldWrite = none ∧
      w.request.item ≤ 7 ∧ t.phase = .running ∧ t.writeBack = some w ∧ t.heldWrite = some h ∧
      (h.port = .p4 ∨ h.port = .p5) ∧ h.port ≠ w.request.port ∧ (t.port h.port).status = .working ∧
      (t.port h.port).dataOut = []) := by decide

/-- Each read at the ends of its ranges and just past them; a HELD reel. -/
theorem witness_Reads :
    (suite held).rdy .p0 = true ∧ (suite held).names 7 0 held ∧ held.waiters.length ≤ 3 ∧ held.renumbering = false ∧
      47 < 48 ∧ 1 ≤ 48 ∧ 1023 < 1024 ∧ 1 ≤ 1024 ∧ 1 < 2 ∧ 511 < 512 ∧ 65534 ≤ 65534 ∧ 65534 < 65535 ∧
      held.custody = .held .p0 := by
  decide

/-- A SHELVED reel in its home slot, and a TAKE that waits. -/
def waiting : State :=
  { suite { ready with custody := .shelved, rack := none } with
    rack := [], slots := [(5, .occupied 7)], pending := [.take .p0 7] }

/-- A state whose queues and board have their form, and a step of it. -/
theorem witness_QueuesAndBoardKeepForm :
    (∀ p ∈ allPorts, (waiting.port p).queueOk) ∧ boardOk waiting.alerts ∧ boardOk (board 23) ∧
      boardFullLast waiting.alerts ∧ boardFullLast (board 1 ++ [alert .boardFull none]) ∧
      (∃ t, step waiting = .next t) :=
  ⟨by decide, by decide, by decide, by decide, by decide, ⟨_, rfl⟩⟩

/-- A table of a reel whose counts are true, without and with a renumbering of it, and a step. -/
theorem witness_ReelRecordsKeepForm :
    let w : Renumber := { reel := 7, f := 100, n := 3, target := true }
    let s : State :=
      { suite { confirmed with renumbering := true } with
        pendingRenumber := some w, renumberWork := some ⟨.defectWalk, .p2⟩, pending := [.defectWalk] }
    waiting.reelTableOk ∧ waiting.countsOk ∧ waiting.pendingRenumber = none ∧
      (∀ e ∈ waiting.reels, e.2.renumbering = false) ∧ (∃ t, step waiting = .next t) ∧
      s.reelTableOk ∧ s.countsOk ∧ s.pendingRenumber = some w ∧ (∃ e ∈ s.reels, e.2.id = w.reel) ∧
      (∀ e ∈ s.reels, e.2.renumbering = decide (e.2.id = w.reel)) ∧ (∃ t, step s = .next t) :=
  ⟨by decide, by decide, by decide, by decide, ⟨_, rfl⟩, by decide, by decide, by decide, by decide, by decide, ⟨_, rfl⟩⟩

/-- The store of three reels at the scene walk of its renumbering. -/
def walking : State := { store 0 with renumberWork := some ⟨.sceneWalk, .p2⟩ }

theorem walking_custodyForm : walking.custodyForm :=
  ⟨by decide,
    show (∃ e ∈ (store 0).reels, e.2.id = 9) ∧ ∀ e ∈ (store 0).reels, e.2.renumbering = decide (e.2.id = 9) from by decide,
    by decide, by decide, by decide, by decide, store_ordersOk, by decide, by decide⟩

/-- A store of one SHELVED reel, as a loss of power may leave it. -/
def brought : Retained := ⟨waiting.reels, waiting.slots, waiting.rack, waiting.orders, none, false⟩

theorem no_orders (s : State) (i : Nat) (r : Reel) (h : s.reels = [(i, r)]) (ho : s.orders = [])
    (hc : r.custody.order = none) : s.ordersOk := by
  refine ⟨by rw [ho]; decide, ?_, by rw [ho]; exact fun _ h => nomatch h⟩
  intro e he x hx
  rw [h, List.mem_singleton] at he
  rw [he, hc] at hx
  cases hx

theorem brought_forms :
    let u := walking.storing brought
    u.custodyForm ∧ u.countsOk ∧ u.slotsOk ∧ u.generationsOk ∧ u.scenesOk :=
  ⟨⟨by decide, show ∀ e ∈ brought.reels, e.2.renumbering = false from by decide, by decide, by decide, by decide,
    by decide, no_orders _ _ _ rfl rfl rfl, by decide, by decide⟩, by decide, by decide, by decide, by decide⟩

/-- With a command in front that brings nothing, and with a loss of power that brings another store: every form, and a
step. -/
theorem witness_CustodyKeepsForm :
    let s (i : Instr) : State := { walking with pending := [i] }
    let lost : Instr := .powerLoss (.changed brought 0)
    (walking.custodyForm ∧ walking.slotsOk ∧ walking.generationsOk ∧ walking.scenesOk ∧ walking.phaseOk ∧
      walking.countsOk) ∧
      ((s .sceneWalk).brings (fun _ => False) ∧ ∃ t, step (s .sceneWalk) = .next t) ∧
      (s lost).brings
        (fun u => u.custodyForm ∧ u.countsOk ∧ u.slotsOk ∧ u.generationsOk ∧ u.scenesOk) ∧
      ∃ t, step (s lost) = .next t := by
  refine ⟨⟨walking_custodyForm, by decide, by decide, by decide, ?_, by decide⟩, ⟨?_, ⟨_, rfl⟩⟩, ?_, ⟨_, rfl⟩⟩
  · intro p
    cases p <;> decide
  · intro i hi c hc
    cases hi
    cases hc
  · intro i hi c hc
    cases hi
    cases hc
    exact brought_forms

/-- A running part and a stopped one, and a step of each. -/
theorem witness_SettingsAndPhaseKeepForm :
    let s : State := stopWork .resetHeld { State.reset with pending := [.suiteMinute] }
    settingsInRange waiting.settings ∧ waiting.phase = .running ∧ (∀ p ∈ allPorts, (waiting.port p).status ≠ .closed) ∧
      (∀ t ∈ [Transport.t0, .t1], (waiting.unit t).setCode ≤ 7) ∧ (∃ t, step waiting = .next t) ∧
      s.phase ≠ .running ∧ (∀ p ∈ allPorts, s.port p = .shut) ∧ s.alerts = [] ∧ s.passes = .const none ∧
      s.heldEdits = none ∧ s.writeBack = none ∧ s.renumberWork = none ∧ (∃ t, step s = .next t) :=
  ⟨by decide, by decide, by decide, by decide, ⟨_, rfl⟩, by decide, by decide, by decide, by decide, by decide, by decide,
    by decide, ⟨_, rfl⟩⟩

/-- A scanner's pass under way, its unit and reel in agreement with it, and a step. -/
theorem witness_ScenesAndPassesKeepForm :
    let s : State := { passing .locked 5750 figures running with pending := [.perfEdge .t0 10000 .forward] }
    s.custodyForm ∧ s.phaseOk ∧ s.passesOk ∧ (s.generationsOk ∧ s.scenesOk ∧ s.brings (fun _ => False)) ∧
      ∃ t, step s = .next t := by
  refine ⟨⟨by decide, show ∀ e ∈ (suite held).reels, e.2.renumbering = false from by decide, by decide, by decide,
    by decide, by decide, no_orders _ _ _ rfl rfl rfl, by decide, by decide⟩, ?_, ?_, ⟨by decide, by decide, ?_⟩, ⟨_, rfl⟩⟩
  · intro p
    cases p <;> decide
  · intro t
    cases t
    · refine ⟨(fun h => by cases h), ?_⟩
      intro q hq
      cases hq
      exact ⟨⟨_, List.mem_singleton.2 rfl, rfl, rfl, rfl, (fun h => by cases h), figures, rfl, rfl, rfl, rfl⟩, Or.inl rfl⟩
    · exact ⟨fun _ => rfl, fun q hq => by cases hq⟩
  · intro i hi c hc
    cases hi
    cases hc

/-- The second in which a resting timer, a threading timer, an exposure minute and a move wait end, and one in which
none does. -/
theorem witness_IdleSecond_timers :
    let one (r : Reel) : State := { State.reset with reels := [(0, r)] }
    let aged (r : Reel) : State :=
      { one { r with exposureSeconds := r.exposureSeconds + 1 } with timestamp := 1000000, suiteSecond := 1 }
    let now (s : State) : State := { s with timestamp := 1000000, suiteSecond := 1 }
    let resting : Reel := { ready with custody := .resting 1 }
    let granted : Reel := { ready with custody := .granted .p0 1 }
    let out : Reel := { ready with custody := .outbound }
    let counting : State :=
      { store 0 with
        reels := [(0, out), (1, { ready with id := 8, rack := some 3, custody := .resting 2, exposureSeconds := 58 }),
          (2, { ready with id := 9, rack := some 4, custody := .granted .p0 2 })]
        orders := [(2, { outward with state := .waiting 2 })] }
    (counting.pending = [] ∧ counting.phase = .running ∧ counting.suiteSecond < 59 ∧ tableOrdered counting.reels ∧
      tableOrdered counting.orders) ∧
    ((one resting).reels = [(0, resting)] ∧ (one resting).orders = [] ∧ resting.id ≠ 0 ∧ resting.exposureSeconds < 59 ∧
      ∃ u, exec (.restingTimerExpiry 7) (aged resting) = .next u) ∧
    (granted.custody = .granted .p0 1 ∧ ∃ u, exec (.threadingTimerExpiry 7) (aged granted) = .next u) ∧
    (59 ≤ ({ held with exposureSeconds := 59 } : Reel).exposureSeconds ∧
      ∃ u, exec (.exposureMinute 7) (now (one { held with exposureSeconds := 59 })) = .next u) ∧
    (out.custody = .outbound ∧ ({ outward with state := .waiting 1 } : MoveOrder).reel = out.id ∧
      ∃ u, exec (.moveWaitExpiry 7) (now (ordered out { outward with state := .waiting 1 })) = .next u) :=
  ⟨by decide, ⟨rfl, rfl, by decide, by decide, ⟨_, rfl⟩⟩, ⟨rfl, ⟨_, rfl⟩⟩, ⟨by decide, ⟨_, rfl⟩⟩, ⟨rfl, rfl, ⟨_, rfl⟩⟩⟩

/-- An idle second that fills a minute at the greatest count, and one of a stopped part. -/
theorem witness_IdleSecond :
    let s : State := { State.reset with suiteSecond := 59, suiteMinute := 65535 }
    s.pending = [] ∧ s.phase = .running ∧ s.reels = [] ∧ s.orders = [] ∧ s.suiteSecond ≤ 59 ∧
      ({ State.reset with phase := .resetHeld } : State).phase ≠ .running := by decide

end Sys2Proof.Tests
end

section
/-! PROOFS. The channel gain (07 section 7.6): a gain is a mantissa scaled by an octave, and the step that ends an
octave is the step to mantissa 8192 within it, so one comparison of mantissas serves every step of the light. -/

namespace Sys2Proof.Laws

open Sys2Proof.Machine

/-- A mantissa scaled by two to the power of its octave, rounded to nearest with halves upward (R147, step 4). -/
def octaveGain (m : Nat) : Int → Nat
  | .ofNat n => m * 2 ^ n
  | .negSucc n => (m + 2 ^ n) / 2 ^ (n + 1)

theorem octaveGain_of_nonneg (m : Nat) {q : Int} (hq : 0 ≤ q) : octaveGain m q = m * 2 ^ q.toNat := by
  obtain ⟨n, rfl⟩ := Int.eq_ofNat_of_zero_le hq
  rfl

theorem octaveGain_of_neg (m : Nat) {q : Int} (hq : q < 0) :
    octaveGain m q = (m + 2 ^ (-q - 1).toNat) / 2 ^ (-q).toNat := by
  obtain ⟨n, rfl⟩ := Int.eq_negSucc_of_lt_zero hq
  have half : (-Int.negSucc n - 1).toNat = n := by omega
  have whole : (-Int.negSucc n).toNat = n + 1 := by omega
  rw [half, whole, octaveGain]

/-- One octave up is the doubled mantissa: the halves of R147 fall on the same side. -/
theorem octaveGain_succ (m : Nat) (q : Int) : octaveGain m (q + 1) = octaveGain (2 * m) q := by
  match q with
  | .ofNat n =>
    change m * 2 ^ (n + 1) = 2 * m * 2 ^ n
    ring
  | .negSucc 0 =>
    change m * 2 ^ 0 = (2 * m + 2 ^ 0) / 2 ^ 1
    omega
  | .negSucc (n + 1) =>
    change (m + 2 ^ n) / 2 ^ (n + 1) = (2 * m + 2 ^ (n + 1)) / 2 ^ (n + 2)
    rw [pow_succ' 2 (n + 1), pow_succ' 2 n, ← Nat.mul_add, Nat.mul_div_mul_left _ _ two_pos]

/-- Mantissas that differ by 8 or more stay apart down to octave -3, where the gain is divided by 8. -/
theorem octaveGain_lt_of_add_eight_le {m m' : Nat} {q : Int} (hq : -3 ≤ q) (h : m + 8 ≤ m') :
    octaveGain m q < octaveGain m' q := by
  cases q with
  | ofNat n => exact Nat.mul_lt_mul_of_pos_right (by omega) (Nat.two_pow_pos n)
  | negSucc n =>
    have divisor : 2 ^ (n + 1) ≤ 2 ^ 3 := Nat.pow_le_pow_right two_pos (by omega)
    calc (m + 2 ^ n) / 2 ^ (n + 1)
        < (m + 2 ^ n) / 2 ^ (n + 1) + 1 := Nat.lt_succ_self _
      _ = (m + 2 ^ n + 2 ^ (n + 1)) / 2 ^ (n + 1) := (Nat.add_div_right _ (Nat.two_pow_pos _)).symm
      _ ≤ (m' + 2 ^ n) / 2 ^ (n + 1) := Nat.div_le_div_right (by omega)

/-- The gain from any octave and remainder that make up the light (R147, steps 1 to 3). -/
theorem gainOf_eq_octaveGain {light r : Nat} {q : Int} (hr : r < 12) (hk : (light : Int) - 25 = 12 * q + r) :
    gainOf light = octaveGain (mantissas.getD r 0) q := by
  have octave : ((light : Int) - 25).fdiv 12 = q := by
    rw [Int.fdiv_eq_ediv_of_nonneg _ (by decide)]
    omega
  have remainder : ((light : Int) - 25 - 12 * q).toNat = r := by omega
  simp only [gainOf, octave, remainder]
  split
  · next hq => exact (octaveGain_of_nonneg _ hq).symm
  · next hq =>
    rw [octaveGain_of_neg _ (not_le.1 hq), show (-q - 1).toNat = (-q).toNat - 1 by omega]

/-- The octave of a light and its remainder (R147, step 2). -/
theorem light_eq_octave_add_remainder (light : Nat) :
    ∃ r : Nat, r < 12 ∧ (light : Int) - 25 = 12 * ((light : Int) - 25).fdiv 12 + r ∧
      ((light : Int) - 25 - 12 * ((light : Int) - 25).fdiv 12).toNat = r := by
  rw [Int.fdiv_eq_ediv_of_nonneg _ (by decide)]
  exact ⟨_, by omega, by omega, rfl⟩

theorem mantissa_add_eight_le_next : ∀ r < 11, mantissas.getD r 0 + 8 ≤ mantissas.getD (r + 1) 0 := by decide

theorem last_mantissa_add_eight_le_octave : mantissas.getD 11 0 + 8 ≤ 2 * mantissas.getD 0 0 := by decide

/-- The gain rises at every step of the light, within an octave and from one octave to the next (R147). -/
theorem gainOf_lt_gainOf_succ (light : Nat) : gainOf light < gainOf (light + 1) := by
  obtain ⟨r, hr, hk, -⟩ := light_eq_octave_add_remainder light
  generalize ((light : Int) - 25).fdiv 12 = q at hk
  have lowest : -3 ≤ q := by omega
  rw [gainOf_eq_octaveGain hr hk]
  by_cases within : r < 11
  · rw [gainOf_eq_octaveGain (r := r + 1) (q := q) (by omega) (by push_cast; omega)]
    exact octaveGain_lt_of_add_eight_le lowest (mantissa_add_eight_le_next r within)
  · obtain rfl : r = 11 := by omega
    rw [gainOf_eq_octaveGain (r := 0) (q := q + 1) (by omega) (by push_cast at hk ⊢; omega), octaveGain_succ]
    exact octaveGain_lt_of_add_eight_le lowest last_mantissa_add_eight_le_octave

/-- Settles O47: the four steps are the octave form of the gain, which rises with every step of the light. -/
theorem gainSteps : Obligations.GainSteps := by
  intro light _
  obtain ⟨r, hr, hk, remainder⟩ := light_eq_octave_add_remainder light
  have gain := gainOf_eq_octaveGain hr hk
  intro k q r' m
  obtain rfl : r' = r := remainder
  refine ⟨by omega, fun hq => ?_, fun hq => ?_, fun _ => gainOf_lt_gainOf_succ light⟩
  · exact gain.trans (octaveGain_of_nonneg _ hq)
  · exact gain.trans (octaveGain_of_neg _ hq)

end Sys2Proof.Laws
end

section
/-! PROOFS. The alert board (08 section 8.3): the four outcomes of a raise, each under the facts about the board that
lead to it, and what a merge does to the one alert it meets. -/

namespace Sys2Proof.Laws

open Sys2Proof.Machine

/-- A saturating count is a count cut off at its greatest value. -/
theorem satSucc_eq_min (top v : Nat) : satSucc top v = min top (v + 1) := by
  unfold satSucc
  split <;> omega

section Raise

variable {s : State} {code : AlertCode} {reel : Option Nat}

/-! ### Which outcome a raise has (R153, R154) -/

theorem boardFull_eq_true : s.boardFull = true ↔ ∃ a ∈ s.alerts, a.code = .boardFull := by
  simp [State.boardFull]

theorem alertFor_isSome (h : ∃ a ∈ s.alerts, a.code = code ∧ a.reel = reel) : (s.alertFor code reel).isSome := by
  rw [Option.isSome_iff_ne_none, ne_eq, alertFor_eq_none]
  simpa using h

theorem raiseAlert_of_match (place : Option AlertPlace) (h : ∃ a ∈ s.alerts, a.code = code ∧ a.reel = reel) :
    raiseAlert code reel place s =
      { s with alerts := s.alerts.map (fun a => if a.isFor code reel then a.merged place else a) } := by
  rw [raiseAlert, if_pos (alertFor_isSome h)]

/-- A raise that matches nothing is decided by BOARD_FULL and the other count (R154). -/
theorem raiseAlert_of_no_match (place : Option AlertPlace) (h : ∀ a ∈ s.alerts, ¬(a.code = code ∧ a.reel = reel)) :
    raiseAlert code reel place s =
      if s.boardFull then
        { s with alerts := s.alerts.map (fun a =>
            if a.code = .boardFull then { a with count := satSucc 255 a.count } else a) }
      else if s.otherCount < Config.boardAlerts then appendAlert code reel place s
      else appendAlert .boardFull none none s := by
  rw [raiseAlert, if_neg (by simp [(alertFor_eq_none s code reel).2 h])]

/-! ### A merge meets one alert (R153) -/

theorem isFor_iff (a : Alert) : a.isFor code reel = true ↔ a.code = code ∧ a.reel = reel := by
  simp [Alert.isFor]

theorem merged_eq (a : Alert) (place : Option AlertPlace) :
    a.merged place =
      { a with
        count := min 255 (a.count + 1)
        place := if place ≠ none ∧ place ≠ a.place then none else a.place } := by
  simp only [Alert.merged, satSucc_eq_min, Option.isSome_iff_ne_none]

theorem map_merged_of_no_match {b : List Alert} (place : Option AlertPlace)
    (h : ∀ a ∈ b, ¬(a.code = code ∧ a.reel = reel)) :
    b.map (fun a => if a.isFor code reel then a.merged place else a) = b :=
  (List.map_congr_left fun a ha => if_neg ((isFor_iff a).not.2 (h a ha))).trans (List.map_id' b)

/-- The one alert that matches is merged in its place, and those around it stand as they are. -/
theorem map_merged_of_one_match {pre post : List Alert} {a : Alert} (place : Option AlertPlace)
    (ha : a.code = code ∧ a.reel = reel) (h : ∀ b ∈ pre ++ post, ¬(b.code = code ∧ b.reel = reel)) :
    (pre ++ a :: post).map (fun a => if a.isFor code reel then a.merged place else a) =
      pre ++ a.merged place :: post := by
  obtain ⟨hpre, hpost⟩ := List.forall_mem_append.1 h
  rw [List.map_append, List.map_cons, map_merged_of_no_match place hpre, map_merged_of_no_match place hpost,
    if_pos ((isFor_iff a).2 ha)]

end Raise

/-- Settles O48: without a match BOARD_FULL and the other count decide between the three outcomes of R154; with one,
the map over the board merges that alert alone (R153). -/
theorem alertRaises : Obligations.AlertRaises := by
  refine ⟨fun s code reel place hnew => ?_, fun s code reel place pre post a hs hcode hreel hrest => ?_⟩
  · intro others append
    have outcome := raiseAlert_of_no_match place hnew
    refine ⟨fun hfull room => ?_, fun hfull noRoom => ?_, fun hfull => ?_⟩
    · have takes : s.otherCount < Config.boardAlerts := Nat.lt_succ_of_le room
      rw [outcome, (boardFull_eq_false s).2 hfull, if_neg Bool.false_ne_true, if_pos takes, appendAlert_eq]
    · have full : ¬ s.otherCount < Config.boardAlerts := noRoom.not_lt
      rw [outcome, (boardFull_eq_false s).2 hfull, if_neg Bool.false_ne_true, if_neg full, appendAlert_eq]
    · rw [outcome, if_pos (boardFull_eq_true.2 hfull)]
      simp only [satSucc_eq_min]
  · have found : a ∈ s.alerts := by simp [hs]
    rw [raiseAlert_of_match place ⟨a, found, hcode, hreel⟩, hs, map_merged_of_one_match place ⟨hcode, hreel⟩ hrest,
      merged_eq]

end Sys2Proof.Laws
end
